-- ==== Sys2Proof/Word.lean ====
section
/-! DEFINITION. The two word types of the core: the data byte (00_scope.md R10) and the 16-bit operand of the
Absolute modes (30_encoding.md R112). -/

namespace Sys2Proof

/-- A data byte, 0..255 (00_scope.md R10, R13). -/
abbrev Byte := BitVec 8

/-- The 16-bit operand `b1 + 256*b2` of a three-byte instruction (30_encoding.md R112). -/
abbrev Addr := BitVec 16

end Sys2Proof
end

