-- ==== Sys2Proof/Syntax.lean ====
section
/-! DEFINITION. The instructions: one constructor of Instr per row of spec/opcode_table.json (30_encoding.md R115),
with its operand bytes, and the 56 mnemonics, 13 addressing modes and access variants its columns use. -/

namespace Sys2Proof

/-- The 56 mnemonics (30_encoding.md R120). -/
inductive Mnemonic where
  | LDA | LDX | LDY | STA | STX | STY
  | ADC | SBC
  | AND | ORA | EOR | BIT
  | ASL | LSR | ROL | ROR
  | CMP | CPX | CPY
  | INC | DEC | INX | INY | DEX | DEY
  | BCC | BCS | BEQ | BNE | BMI | BPL | BVC | BVS
  | PHA | PHP | PLA | PLP | JMP | JSR | RTS | BRK | RTI
  | CLC | SEC | CLI | SEI | CLD | SED | CLV | TAX | TAY | TXA | TYA | TSX | TXS | NOP
  deriving DecidableEq, Repr

/-- The 13 addressing modes (40_tick_and_addressing.md R140). -/
inductive Mode where
  | implicit | accumulator | immediate | zeroPage | zeroPageX | zeroPageY | relative
  | absolute | absoluteX | absoluteY | indirect | indexedIndirect | indirectIndexed
  deriving DecidableEq, Repr

/-- The access variants of a mode (40_tick_and_addressing.md R145). -/
inductive Access where
  | read | addressOnly | readModifyWrite | none
  deriving DecidableEq, Repr

/-- An addressing mode with the operand bytes that follow the opcode (30_encoding.md R112): `b` is byte 1, `a` is
`b1 + 256*b2`. -/
inductive Operand where
  | implicit
  | accumulator
  | immediate (b : Byte)
  | zeroPage (b : Byte)
  | zeroPageX (b : Byte)
  | zeroPageY (b : Byte)
  | relative (b : Byte)
  | absolute (a : Addr)
  | absoluteX (a : Addr)
  | absoluteY (a : Addr)
  | indirect (a : Addr)
  | indexedIndirect (b : Byte)
  | indirectIndexed (b : Byte)
  deriving DecidableEq, Repr

/-- The 151 instructions (30_encoding.md R115). A name is the mnemonic and, where it has several modes, the mode:
Imm, Zp, ZpX, ZpY, Abs, AbsX, AbsY, Ind (Indirect), IndX (IndexedIndirect), IndY (IndirectIndexed), Acc. -/
inductive Instr where
  | ldaIndX (b : Byte)
  | ldaZp (b : Byte)
  | ldaImm (b : Byte)
  | ldaAbs (a : Addr)
  | ldaIndY (b : Byte)
  | ldaZpX (b : Byte)
  | ldaAbsY (a : Addr)
  | ldaAbsX (a : Addr)
  | ldxImm (b : Byte)
  | ldxZp (b : Byte)
  | ldxAbs (a : Addr)
  | ldxZpY (b : Byte)
  | ldxAbsY (a : Addr)
  | ldyImm (b : Byte)
  | ldyZp (b : Byte)
  | ldyAbs (a : Addr)
  | ldyZpX (b : Byte)
  | ldyAbsX (a : Addr)
  | staIndX (b : Byte)
  | staZp (b : Byte)
  | staAbs (a : Addr)
  | staIndY (b : Byte)
  | staZpX (b : Byte)
  | staAbsY (a : Addr)
  | staAbsX (a : Addr)
  | stxZp (b : Byte)
  | stxAbs (a : Addr)
  | stxZpY (b : Byte)
  | styZp (b : Byte)
  | styAbs (a : Addr)
  | styZpX (b : Byte)
  | adcIndX (b : Byte)
  | adcZp (b : Byte)
  | adcImm (b : Byte)
  | adcAbs (a : Addr)
  | adcIndY (b : Byte)
  | adcZpX (b : Byte)
  | adcAbsY (a : Addr)
  | adcAbsX (a : Addr)
  | sbcIndX (b : Byte)
  | sbcZp (b : Byte)
  | sbcImm (b : Byte)
  | sbcAbs (a : Addr)
  | sbcIndY (b : Byte)
  | sbcZpX (b : Byte)
  | sbcAbsY (a : Addr)
  | sbcAbsX (a : Addr)
  | andIndX (b : Byte)
  | andZp (b : Byte)
  | andImm (b : Byte)
  | andAbs (a : Addr)
  | andIndY (b : Byte)
  | andZpX (b : Byte)
  | andAbsY (a : Addr)
  | andAbsX (a : Addr)
  | oraIndX (b : Byte)
  | oraZp (b : Byte)
  | oraImm (b : Byte)
  | oraAbs (a : Addr)
  | oraIndY (b : Byte)
  | oraZpX (b : Byte)
  | oraAbsY (a : Addr)
  | oraAbsX (a : Addr)
  | eorIndX (b : Byte)
  | eorZp (b : Byte)
  | eorImm (b : Byte)
  | eorAbs (a : Addr)
  | eorIndY (b : Byte)
  | eorZpX (b : Byte)
  | eorAbsY (a : Addr)
  | eorAbsX (a : Addr)
  | bitZp (b : Byte)
  | bitAbs (a : Addr)
  | aslZp (b : Byte)
  | aslAcc
  | aslAbs (a : Addr)
  | aslZpX (b : Byte)
  | aslAbsX (a : Addr)
  | lsrZp (b : Byte)
  | lsrAcc
  | lsrAbs (a : Addr)
  | lsrZpX (b : Byte)
  | lsrAbsX (a : Addr)
  | rolZp (b : Byte)
  | rolAcc
  | rolAbs (a : Addr)
  | rolZpX (b : Byte)
  | rolAbsX (a : Addr)
  | rorZp (b : Byte)
  | rorAcc
  | rorAbs (a : Addr)
  | rorZpX (b : Byte)
  | rorAbsX (a : Addr)
  | cmpIndX (b : Byte)
  | cmpZp (b : Byte)
  | cmpImm (b : Byte)
  | cmpAbs (a : Addr)
  | cmpIndY (b : Byte)
  | cmpZpX (b : Byte)
  | cmpAbsY (a : Addr)
  | cmpAbsX (a : Addr)
  | cpxImm (b : Byte)
  | cpxZp (b : Byte)
  | cpxAbs (a : Addr)
  | cpyImm (b : Byte)
  | cpyZp (b : Byte)
  | cpyAbs (a : Addr)
  | incZp (b : Byte)
  | incAbs (a : Addr)
  | incZpX (b : Byte)
  | incAbsX (a : Addr)
  | decZp (b : Byte)
  | decAbs (a : Addr)
  | decZpX (b : Byte)
  | decAbsX (a : Addr)
  | inx
  | iny
  | dex
  | dey
  | bcc (b : Byte)
  | bcs (b : Byte)
  | beq (b : Byte)
  | bne (b : Byte)
  | bmi (b : Byte)
  | bpl (b : Byte)
  | bvc (b : Byte)
  | bvs (b : Byte)
  | pha
  | php
  | pla
  | plp
  | jmpAbs (a : Addr)
  | jmpInd (a : Addr)
  | jsr (a : Addr)
  | rts
  | brk
  | rti
  | clc
  | sec
  | cli
  | sei
  | cld
  | sed
  | clv
  | tax
  | tay
  | txa
  | tya
  | tsx
  | txs
  | nop
  deriving DecidableEq, Repr

end Sys2Proof
end

