-- ==== Sys2Proof/Decode.lean ====
section
/-! DEFINITION. The dictionary (30_encoding.md R113 to R115), the decoder over it, and the encoder written from the same
table. The opcode bytes, cycle counts and page-cross extras are the spec's table (its D2 and D3, log entry 8). -/

namespace Sys2Proof

/-! Byte order (20_memory.md R69, 30_encoding.md R112): little-endian. -/

/-- `b1 + 256*b2`: byte 1 is the low byte. -/
def joinBytes (b1 b2 : Byte) : Addr := b2 ++ b1

/-- `lo(v) = v[7:0]` (00_scope.md R13). -/
def lowByte (a : Addr) : Byte := a.setWidth 8

/-- `hi(v) = v[15:8]` (00_scope.md R13). -/
def highByte (a : Addr) : Byte := (a >>> 8).setWidth 8

/-- The name a trace entry records (40_tick_and_addressing.md R161). -/
def Mode.name : Mode → String
  | .implicit => "Implicit"
  | .accumulator => "Accumulator"
  | .immediate => "Immediate"
  | .zeroPage => "ZeroPage"
  | .zeroPageX => "ZeroPageX"
  | .zeroPageY => "ZeroPageY"
  | .relative => "Relative"
  | .absolute => "Absolute"
  | .absoluteX => "AbsoluteX"
  | .absoluteY => "AbsoluteY"
  | .indirect => "Indirect"
  | .indexedIndirect => "IndexedIndirect"
  | .indirectIndexed => "IndirectIndexed"

/-- The length of an instruction is a function of its mode alone (30_encoding.md R110, R111). -/
def Mode.length : Mode → Nat
  | .implicit | .accumulator => 1
  | .immediate | .zeroPage | .zeroPageX | .zeroPageY | .relative | .indexedIndirect | .indirectIndexed => 2
  | .absolute | .absoluteX | .absoluteY | .indirect => 3

/-- The mode of an operand form. -/
def Operand.mode : Operand → Mode
  | .implicit => .implicit
  | .accumulator => .accumulator
  | .immediate _ => .immediate
  | .zeroPage _ => .zeroPage
  | .zeroPageX _ => .zeroPageX
  | .zeroPageY _ => .zeroPageY
  | .relative _ => .relative
  | .absolute _ => .absolute
  | .absoluteX _ => .absoluteX
  | .absoluteY _ => .absoluteY
  | .indirect _ => .indirect
  | .indexedIndirect _ => .indexedIndirect
  | .indirectIndexed _ => .indirectIndexed

/-- The operand bytes, in the order they stand in memory (30_encoding.md R110, R112). -/
def Operand.bytes : Operand → List Byte
  | .implicit | .accumulator => []
  | .immediate b | .zeroPage b | .zeroPageX b | .zeroPageY b | .relative b | .indexedIndirect b
  | .indirectIndexed b => [b]
  | .absolute a | .absoluteX a | .absoluteY a | .indirect a => [lowByte a, highByte a]

/-- A dictionary entry: what an opcode byte maps to (30_encoding.md R113, R114). -/
structure Entry where
  opcode : Byte
  mnemonic : Mnemonic
  mode : Mode
  /-- Base cycle cost. -/
  base : Nat
  /-- Extra cycles where the mode reports a page cross. -/
  extra : Nat
  access : Access
  deriving DecidableEq, Repr

/-- The opcode table, row by row (30_encoding.md R115). -/
def Instr.entry : Instr → Entry
  | .ldaIndX _ => ⟨0xA1, .LDA, .indexedIndirect, 6, 0, .read⟩
  | .ldaZp _ => ⟨0xA5, .LDA, .zeroPage, 3, 0, .read⟩
  | .ldaImm _ => ⟨0xA9, .LDA, .immediate, 2, 0, .read⟩
  | .ldaAbs _ => ⟨0xAD, .LDA, .absolute, 4, 0, .read⟩
  | .ldaIndY _ => ⟨0xB1, .LDA, .indirectIndexed, 5, 1, .read⟩
  | .ldaZpX _ => ⟨0xB5, .LDA, .zeroPageX, 4, 0, .read⟩
  | .ldaAbsY _ => ⟨0xB9, .LDA, .absoluteY, 4, 1, .read⟩
  | .ldaAbsX _ => ⟨0xBD, .LDA, .absoluteX, 4, 1, .read⟩
  | .ldxImm _ => ⟨0xA2, .LDX, .immediate, 2, 0, .read⟩
  | .ldxZp _ => ⟨0xA6, .LDX, .zeroPage, 3, 0, .read⟩
  | .ldxAbs _ => ⟨0xAE, .LDX, .absolute, 4, 0, .read⟩
  | .ldxZpY _ => ⟨0xB6, .LDX, .zeroPageY, 4, 0, .read⟩
  | .ldxAbsY _ => ⟨0xBE, .LDX, .absoluteY, 4, 1, .read⟩
  | .ldyImm _ => ⟨0xA0, .LDY, .immediate, 2, 0, .read⟩
  | .ldyZp _ => ⟨0xA4, .LDY, .zeroPage, 3, 0, .read⟩
  | .ldyAbs _ => ⟨0xAC, .LDY, .absolute, 4, 0, .read⟩
  | .ldyZpX _ => ⟨0xB4, .LDY, .zeroPageX, 4, 0, .read⟩
  | .ldyAbsX _ => ⟨0xBC, .LDY, .absoluteX, 4, 1, .read⟩
  | .staIndX _ => ⟨0x81, .STA, .indexedIndirect, 6, 0, .addressOnly⟩
  | .staZp _ => ⟨0x85, .STA, .zeroPage, 3, 0, .addressOnly⟩
  | .staAbs _ => ⟨0x8D, .STA, .absolute, 4, 0, .addressOnly⟩
  | .staIndY _ => ⟨0x91, .STA, .indirectIndexed, 6, 0, .addressOnly⟩
  | .staZpX _ => ⟨0x95, .STA, .zeroPageX, 4, 0, .addressOnly⟩
  | .staAbsY _ => ⟨0x99, .STA, .absoluteY, 5, 0, .addressOnly⟩
  | .staAbsX _ => ⟨0x9D, .STA, .absoluteX, 5, 0, .addressOnly⟩
  | .stxZp _ => ⟨0x86, .STX, .zeroPage, 3, 0, .addressOnly⟩
  | .stxAbs _ => ⟨0x8E, .STX, .absolute, 4, 0, .addressOnly⟩
  | .stxZpY _ => ⟨0x96, .STX, .zeroPageY, 4, 0, .addressOnly⟩
  | .styZp _ => ⟨0x84, .STY, .zeroPage, 3, 0, .addressOnly⟩
  | .styAbs _ => ⟨0x8C, .STY, .absolute, 4, 0, .addressOnly⟩
  | .styZpX _ => ⟨0x94, .STY, .zeroPageX, 4, 0, .addressOnly⟩
  | .adcIndX _ => ⟨0x61, .ADC, .indexedIndirect, 6, 0, .read⟩
  | .adcZp _ => ⟨0x65, .ADC, .zeroPage, 3, 0, .read⟩
  | .adcImm _ => ⟨0x69, .ADC, .immediate, 2, 0, .read⟩
  | .adcAbs _ => ⟨0x6D, .ADC, .absolute, 4, 0, .read⟩
  | .adcIndY _ => ⟨0x71, .ADC, .indirectIndexed, 5, 1, .read⟩
  | .adcZpX _ => ⟨0x75, .ADC, .zeroPageX, 4, 0, .read⟩
  | .adcAbsY _ => ⟨0x79, .ADC, .absoluteY, 4, 1, .read⟩
  | .adcAbsX _ => ⟨0x7D, .ADC, .absoluteX, 4, 1, .read⟩
  | .sbcIndX _ => ⟨0xE1, .SBC, .indexedIndirect, 6, 0, .read⟩
  | .sbcZp _ => ⟨0xE5, .SBC, .zeroPage, 3, 0, .read⟩
  | .sbcImm _ => ⟨0xE9, .SBC, .immediate, 2, 0, .read⟩
  | .sbcAbs _ => ⟨0xED, .SBC, .absolute, 4, 0, .read⟩
  | .sbcIndY _ => ⟨0xF1, .SBC, .indirectIndexed, 5, 1, .read⟩
  | .sbcZpX _ => ⟨0xF5, .SBC, .zeroPageX, 4, 0, .read⟩
  | .sbcAbsY _ => ⟨0xF9, .SBC, .absoluteY, 4, 1, .read⟩
  | .sbcAbsX _ => ⟨0xFD, .SBC, .absoluteX, 4, 1, .read⟩
  | .andIndX _ => ⟨0x21, .AND, .indexedIndirect, 6, 0, .read⟩
  | .andZp _ => ⟨0x25, .AND, .zeroPage, 3, 0, .read⟩
  | .andImm _ => ⟨0x29, .AND, .immediate, 2, 0, .read⟩
  | .andAbs _ => ⟨0x2D, .AND, .absolute, 4, 0, .read⟩
  | .andIndY _ => ⟨0x31, .AND, .indirectIndexed, 5, 1, .read⟩
  | .andZpX _ => ⟨0x35, .AND, .zeroPageX, 4, 0, .read⟩
  | .andAbsY _ => ⟨0x39, .AND, .absoluteY, 4, 1, .read⟩
  | .andAbsX _ => ⟨0x3D, .AND, .absoluteX, 4, 1, .read⟩
  | .oraIndX _ => ⟨0x01, .ORA, .indexedIndirect, 6, 0, .read⟩
  | .oraZp _ => ⟨0x05, .ORA, .zeroPage, 3, 0, .read⟩
  | .oraImm _ => ⟨0x09, .ORA, .immediate, 2, 0, .read⟩
  | .oraAbs _ => ⟨0x0D, .ORA, .absolute, 4, 0, .read⟩
  | .oraIndY _ => ⟨0x11, .ORA, .indirectIndexed, 5, 1, .read⟩
  | .oraZpX _ => ⟨0x15, .ORA, .zeroPageX, 4, 0, .read⟩
  | .oraAbsY _ => ⟨0x19, .ORA, .absoluteY, 4, 1, .read⟩
  | .oraAbsX _ => ⟨0x1D, .ORA, .absoluteX, 4, 1, .read⟩
  | .eorIndX _ => ⟨0x41, .EOR, .indexedIndirect, 6, 0, .read⟩
  | .eorZp _ => ⟨0x45, .EOR, .zeroPage, 3, 0, .read⟩
  | .eorImm _ => ⟨0x49, .EOR, .immediate, 2, 0, .read⟩
  | .eorAbs _ => ⟨0x4D, .EOR, .absolute, 4, 0, .read⟩
  | .eorIndY _ => ⟨0x51, .EOR, .indirectIndexed, 5, 1, .read⟩
  | .eorZpX _ => ⟨0x55, .EOR, .zeroPageX, 4, 0, .read⟩
  | .eorAbsY _ => ⟨0x59, .EOR, .absoluteY, 4, 1, .read⟩
  | .eorAbsX _ => ⟨0x5D, .EOR, .absoluteX, 4, 1, .read⟩
  | .bitZp _ => ⟨0x24, .BIT, .zeroPage, 3, 0, .read⟩
  | .bitAbs _ => ⟨0x2C, .BIT, .absolute, 4, 0, .read⟩
  | .aslZp _ => ⟨0x06, .ASL, .zeroPage, 5, 0, .readModifyWrite⟩
  | .aslAcc => ⟨0x0A, .ASL, .accumulator, 2, 0, .none⟩
  | .aslAbs _ => ⟨0x0E, .ASL, .absolute, 6, 0, .readModifyWrite⟩
  | .aslZpX _ => ⟨0x16, .ASL, .zeroPageX, 6, 0, .readModifyWrite⟩
  | .aslAbsX _ => ⟨0x1E, .ASL, .absoluteX, 7, 0, .readModifyWrite⟩
  | .lsrZp _ => ⟨0x46, .LSR, .zeroPage, 5, 0, .readModifyWrite⟩
  | .lsrAcc => ⟨0x4A, .LSR, .accumulator, 2, 0, .none⟩
  | .lsrAbs _ => ⟨0x4E, .LSR, .absolute, 6, 0, .readModifyWrite⟩
  | .lsrZpX _ => ⟨0x56, .LSR, .zeroPageX, 6, 0, .readModifyWrite⟩
  | .lsrAbsX _ => ⟨0x5E, .LSR, .absoluteX, 7, 0, .readModifyWrite⟩
  | .rolZp _ => ⟨0x26, .ROL, .zeroPage, 5, 0, .readModifyWrite⟩
  | .rolAcc => ⟨0x2A, .ROL, .accumulator, 2, 0, .none⟩
  | .rolAbs _ => ⟨0x2E, .ROL, .absolute, 6, 0, .readModifyWrite⟩
  | .rolZpX _ => ⟨0x36, .ROL, .zeroPageX, 6, 0, .readModifyWrite⟩
  | .rolAbsX _ => ⟨0x3E, .ROL, .absoluteX, 7, 0, .readModifyWrite⟩
  | .rorZp _ => ⟨0x66, .ROR, .zeroPage, 5, 0, .readModifyWrite⟩
  | .rorAcc => ⟨0x6A, .ROR, .accumulator, 2, 0, .none⟩
  | .rorAbs _ => ⟨0x6E, .ROR, .absolute, 6, 0, .readModifyWrite⟩
  | .rorZpX _ => ⟨0x76, .ROR, .zeroPageX, 6, 0, .readModifyWrite⟩
  | .rorAbsX _ => ⟨0x7E, .ROR, .absoluteX, 7, 0, .readModifyWrite⟩
  | .cmpIndX _ => ⟨0xC1, .CMP, .indexedIndirect, 6, 0, .read⟩
  | .cmpZp _ => ⟨0xC5, .CMP, .zeroPage, 3, 0, .read⟩
  | .cmpImm _ => ⟨0xC9, .CMP, .immediate, 2, 0, .read⟩
  | .cmpAbs _ => ⟨0xCD, .CMP, .absolute, 4, 0, .read⟩
  | .cmpIndY _ => ⟨0xD1, .CMP, .indirectIndexed, 5, 1, .read⟩
  | .cmpZpX _ => ⟨0xD5, .CMP, .zeroPageX, 4, 0, .read⟩
  | .cmpAbsY _ => ⟨0xD9, .CMP, .absoluteY, 4, 1, .read⟩
  | .cmpAbsX _ => ⟨0xDD, .CMP, .absoluteX, 4, 1, .read⟩
  | .cpxImm _ => ⟨0xE0, .CPX, .immediate, 2, 0, .read⟩
  | .cpxZp _ => ⟨0xE4, .CPX, .zeroPage, 3, 0, .read⟩
  | .cpxAbs _ => ⟨0xEC, .CPX, .absolute, 4, 0, .read⟩
  | .cpyImm _ => ⟨0xC0, .CPY, .immediate, 2, 0, .read⟩
  | .cpyZp _ => ⟨0xC4, .CPY, .zeroPage, 3, 0, .read⟩
  | .cpyAbs _ => ⟨0xCC, .CPY, .absolute, 4, 0, .read⟩
  | .incZp _ => ⟨0xE6, .INC, .zeroPage, 5, 0, .readModifyWrite⟩
  | .incAbs _ => ⟨0xEE, .INC, .absolute, 6, 0, .readModifyWrite⟩
  | .incZpX _ => ⟨0xF6, .INC, .zeroPageX, 6, 0, .readModifyWrite⟩
  | .incAbsX _ => ⟨0xFE, .INC, .absoluteX, 7, 0, .readModifyWrite⟩
  | .decZp _ => ⟨0xC6, .DEC, .zeroPage, 5, 0, .readModifyWrite⟩
  | .decAbs _ => ⟨0xCE, .DEC, .absolute, 6, 0, .readModifyWrite⟩
  | .decZpX _ => ⟨0xD6, .DEC, .zeroPageX, 6, 0, .readModifyWrite⟩
  | .decAbsX _ => ⟨0xDE, .DEC, .absoluteX, 7, 0, .readModifyWrite⟩
  | .inx => ⟨0xE8, .INX, .implicit, 2, 0, .none⟩
  | .iny => ⟨0xC8, .INY, .implicit, 2, 0, .none⟩
  | .dex => ⟨0xCA, .DEX, .implicit, 2, 0, .none⟩
  | .dey => ⟨0x88, .DEY, .implicit, 2, 0, .none⟩
  | .bcc _ => ⟨0x90, .BCC, .relative, 2, 0, .none⟩
  | .bcs _ => ⟨0xB0, .BCS, .relative, 2, 0, .none⟩
  | .beq _ => ⟨0xF0, .BEQ, .relative, 2, 0, .none⟩
  | .bne _ => ⟨0xD0, .BNE, .relative, 2, 0, .none⟩
  | .bmi _ => ⟨0x30, .BMI, .relative, 2, 0, .none⟩
  | .bpl _ => ⟨0x10, .BPL, .relative, 2, 0, .none⟩
  | .bvc _ => ⟨0x50, .BVC, .relative, 2, 0, .none⟩
  | .bvs _ => ⟨0x70, .BVS, .relative, 2, 0, .none⟩
  | .pha => ⟨0x48, .PHA, .implicit, 3, 0, .none⟩
  | .php => ⟨0x08, .PHP, .implicit, 3, 0, .none⟩
  | .pla => ⟨0x68, .PLA, .implicit, 4, 0, .none⟩
  | .plp => ⟨0x28, .PLP, .implicit, 4, 0, .none⟩
  | .jmpAbs _ => ⟨0x4C, .JMP, .absolute, 3, 0, .addressOnly⟩
  | .jmpInd _ => ⟨0x6C, .JMP, .indirect, 5, 0, .addressOnly⟩
  | .jsr _ => ⟨0x20, .JSR, .absolute, 6, 0, .addressOnly⟩
  | .rts => ⟨0x60, .RTS, .implicit, 6, 0, .none⟩
  | .brk => ⟨0x00, .BRK, .implicit, 7, 0, .none⟩
  | .rti => ⟨0x40, .RTI, .implicit, 6, 0, .none⟩
  | .clc => ⟨0x18, .CLC, .implicit, 2, 0, .none⟩
  | .sec => ⟨0x38, .SEC, .implicit, 2, 0, .none⟩
  | .cli => ⟨0x58, .CLI, .implicit, 2, 0, .none⟩
  | .sei => ⟨0x78, .SEI, .implicit, 2, 0, .none⟩
  | .cld => ⟨0xD8, .CLD, .implicit, 2, 0, .none⟩
  | .sed => ⟨0xF8, .SED, .implicit, 2, 0, .none⟩
  | .clv => ⟨0xB8, .CLV, .implicit, 2, 0, .none⟩
  | .tax => ⟨0xAA, .TAX, .implicit, 2, 0, .none⟩
  | .tay => ⟨0xA8, .TAY, .implicit, 2, 0, .none⟩
  | .txa => ⟨0x8A, .TXA, .implicit, 2, 0, .none⟩
  | .tya => ⟨0x98, .TYA, .implicit, 2, 0, .none⟩
  | .tsx => ⟨0xBA, .TSX, .implicit, 2, 0, .none⟩
  | .txs => ⟨0x9A, .TXS, .implicit, 2, 0, .none⟩
  | .nop => ⟨0xEA, .NOP, .implicit, 2, 0, .none⟩

/-- The addressing mode of an instruction with its operand bytes (30_encoding.md R112, R115). -/
def Instr.operand : Instr → Operand
  | .inx | .iny | .dex | .dey | .pha | .php | .pla | .plp | .rts | .brk | .rti | .clc | .sec | .cli | .sei
  | .cld | .sed | .clv | .tax | .tay | .txa | .tya | .tsx | .txs | .nop => .implicit
  | .aslAcc | .lsrAcc | .rolAcc | .rorAcc => .accumulator
  | .ldaImm b | .ldxImm b | .ldyImm b | .adcImm b | .sbcImm b | .andImm b | .oraImm b | .eorImm b | .cmpImm b
  | .cpxImm b | .cpyImm b => .immediate b
  | .ldaZp b | .ldxZp b | .ldyZp b | .staZp b | .stxZp b | .styZp b | .adcZp b | .sbcZp b | .andZp b | .oraZp b
  | .eorZp b | .bitZp b | .aslZp b | .lsrZp b | .rolZp b | .rorZp b | .cmpZp b | .cpxZp b | .cpyZp b | .incZp b
  | .decZp b => .zeroPage b
  | .ldaZpX b | .ldyZpX b | .staZpX b | .styZpX b | .adcZpX b | .sbcZpX b | .andZpX b | .oraZpX b | .eorZpX b
  | .aslZpX b | .lsrZpX b | .rolZpX b | .rorZpX b | .cmpZpX b | .incZpX b | .decZpX b => .zeroPageX b
  | .ldxZpY b | .stxZpY b => .zeroPageY b
  | .bcc b | .bcs b | .beq b | .bne b | .bmi b | .bpl b | .bvc b | .bvs b => .relative b
  | .ldaAbs a | .ldxAbs a | .ldyAbs a | .staAbs a | .stxAbs a | .styAbs a | .adcAbs a | .sbcAbs a | .andAbs a
  | .oraAbs a | .eorAbs a | .bitAbs a | .aslAbs a | .lsrAbs a | .rolAbs a | .rorAbs a | .cmpAbs a | .cpxAbs a
  | .cpyAbs a | .incAbs a | .decAbs a | .jmpAbs a | .jsr a => .absolute a
  | .ldaAbsX a | .ldyAbsX a | .staAbsX a | .adcAbsX a | .sbcAbsX a | .andAbsX a | .oraAbsX a | .eorAbsX a
  | .aslAbsX a | .lsrAbsX a | .rolAbsX a | .rorAbsX a | .cmpAbsX a | .incAbsX a | .decAbsX a => .absoluteX a
  | .ldaAbsY a | .ldxAbsY a | .staAbsY a | .adcAbsY a | .sbcAbsY a | .andAbsY a | .oraAbsY a | .eorAbsY a
  | .cmpAbsY a => .absoluteY a
  | .jmpInd a => .indirect a
  | .ldaIndX b | .staIndX b | .adcIndX b | .sbcIndX b | .andIndX b | .oraIndX b | .eorIndX b | .cmpIndX b => .indexedIndirect b
  | .ldaIndY b | .staIndY b | .adcIndY b | .sbcIndY b | .andIndY b | .oraIndY b | .eorIndY b | .cmpIndY b => .indirectIndexed b

/-- The words of an instruction: its opcode byte, then its operand bytes (30_encoding.md R110). Every term of Instr is
well-formed. -/
def encode (i : Instr) : List Byte := i.entry.opcode :: i.operand.bytes

/-- An instruction still waiting for its operand bytes: none, byte 1, or bytes 1 and 2. -/
inductive Form where
  | bare (i : Instr)
  | byte (f : Byte → Instr)
  | word (f : Addr → Instr)

/-- A member of the form, for what does not depend on the operand. -/
def Form.sample : Form → Instr
  | .bare i => i
  | .byte f => f 0
  | .word f => f 0

def Form.entry (f : Form) : Entry := f.sample.entry

/-- The dictionary entries of 41_load_store.md. -/
def formsLoadStore : List Form :=
  [.byte .ldaIndX, .byte .ldaZp, .byte .ldaImm, .word .ldaAbs, .byte .ldaIndY, .byte .ldaZpX,
   .word .ldaAbsY, .word .ldaAbsX, .byte .ldxImm, .byte .ldxZp, .word .ldxAbs, .byte .ldxZpY] ++
  [.word .ldxAbsY, .byte .ldyImm, .byte .ldyZp, .word .ldyAbs, .byte .ldyZpX, .word .ldyAbsX,
   .byte .staIndX, .byte .staZp, .word .staAbs, .byte .staIndY, .byte .staZpX, .word .staAbsY] ++
  [.word .staAbsX, .byte .stxZp, .word .stxAbs, .byte .stxZpY, .byte .styZp, .word .styAbs, .byte .styZpX]

/-- The dictionary entries of 42_arithmetic.md. -/
def formsArithmetic : List Form :=
  [.byte .adcIndX, .byte .adcZp, .byte .adcImm, .word .adcAbs, .byte .adcIndY, .byte .adcZpX,
   .word .adcAbsY, .word .adcAbsX, .byte .sbcIndX, .byte .sbcZp, .byte .sbcImm, .word .sbcAbs] ++
  [.byte .sbcIndY, .byte .sbcZpX, .word .sbcAbsY, .word .sbcAbsX]

/-- The dictionary entries of 43_logical.md. -/
def formsLogical : List Form :=
  [.byte .andIndX, .byte .andZp, .byte .andImm, .word .andAbs, .byte .andIndY, .byte .andZpX,
   .word .andAbsY, .word .andAbsX, .byte .oraIndX, .byte .oraZp, .byte .oraImm, .word .oraAbs] ++
  [.byte .oraIndY, .byte .oraZpX, .word .oraAbsY, .word .oraAbsX, .byte .eorIndX, .byte .eorZp,
   .byte .eorImm, .word .eorAbs, .byte .eorIndY, .byte .eorZpX, .word .eorAbsY, .word .eorAbsX] ++
  [.byte .bitZp, .word .bitAbs]

/-- The dictionary entries of 44_shift_rotate.md. -/
def formsShift : List Form :=
  [.byte .aslZp, .bare .aslAcc, .word .aslAbs, .byte .aslZpX, .word .aslAbsX, .byte .lsrZp, .bare .lsrAcc,
   .word .lsrAbs, .byte .lsrZpX, .word .lsrAbsX, .byte .rolZp, .bare .rolAcc] ++
  [.word .rolAbs, .byte .rolZpX, .word .rolAbsX, .byte .rorZp, .bare .rorAcc, .word .rorAbs,
   .byte .rorZpX, .word .rorAbsX]

/-- The dictionary entries of 45_compare.md. -/
def formsCompare : List Form :=
  [.byte .cmpIndX, .byte .cmpZp, .byte .cmpImm, .word .cmpAbs, .byte .cmpIndY, .byte .cmpZpX,
   .word .cmpAbsY, .word .cmpAbsX, .byte .cpxImm, .byte .cpxZp, .word .cpxAbs, .byte .cpyImm] ++
  [.byte .cpyZp, .word .cpyAbs]

/-- The dictionary entries of 46_incdec.md. -/
def formsIncDec : List Form :=
  [.byte .incZp, .word .incAbs, .byte .incZpX, .word .incAbsX, .byte .decZp, .word .decAbs, .byte .decZpX,
   .word .decAbsX, .bare .inx, .bare .iny, .bare .dex, .bare .dey]

/-- The dictionary entries of 47_branch.md. -/
def formsBranch : List Form :=
  [.byte .bcc, .byte .bcs, .byte .beq, .byte .bne, .byte .bmi, .byte .bpl, .byte .bvc, .byte .bvs]

/-- The dictionary entries of 48_stack_control.md. -/
def formsStack : List Form :=
  [.bare .pha, .bare .php, .bare .pla, .bare .plp, .word .jmpAbs, .word .jmpInd, .word .jsr, .bare .rts,
   .bare .brk, .bare .rti]

/-- The dictionary entries of 49_flags_transfer_nop.md. -/
def formsFlagsTransfer : List Form :=
  [.bare .clc, .bare .sec, .bare .cli, .bare .sei, .bare .cld, .bare .sed, .bare .clv, .bare .tax,
   .bare .tay, .bare .txa, .bare .tya, .bare .tsx] ++
  [.bare .txs, .bare .nop]

/-- Every entry of the dictionary (30_encoding.md R115). -/
def forms : List Form :=
  formsLoadStore ++ formsArithmetic ++ formsLogical ++ formsShift ++ formsCompare ++
  formsIncDec ++ formsBranch ++ formsStack ++ formsFlagsTransfer

/-- The dictionary lookup (30_encoding.md R113); none for the 105 bytes with no entry (R117). -/
def dict (op : Byte) : Option Form := forms.find? (fun f => f.entry.opcode == op)

/-- Why bytes decode to no instruction. -/
inductive DecodeError where
  /-- The opcode byte has no dictionary entry (30_encoding.md R117). -/
  | unknownOpcode (op : Byte)
  /-- The bytes end before the instruction does. -/
  | truncated
  deriving DecidableEq, Repr

/-- Decode the instruction at the front of `bs` and give the bytes after it; total on any bytes. -/
def decode : List Byte → Except DecodeError (Instr × List Byte)
  | [] => .error .truncated
  | op :: bs =>
    match dict op, bs with
    | none, _ => .error (.unknownOpcode op)
    | some (.bare i), bs => .ok (i, bs)
    | some (.byte f), b1 :: bs => .ok (f b1, bs)
    | some (.word f), b1 :: b2 :: bs => .ok (f (joinBytes b1 b2), bs)
    | some _, _ => .error .truncated

/-- The bytes of an instruction numbered as spec/opcode_table.json numbers its bits: byte k is bits 8k+7..8k, and every bit
from `nbits` on is 0. Three bytes, the longest instruction (30_encoding.md R110). -/
def tableBytes (nbits w : Nat) : List Byte :=
  let v := w % 2 ^ nbits
  [BitVec.ofNat 8 v, BitVec.ofNat 8 (v / 2 ^ 8), BitVec.ofNat 8 (v / 2 ^ 16)]

/-- The instruction the decoder reads from a table word. -/
def decodeTableWord (nbits w : Nat) : Option Instr :=
  match decode (tableBytes nbits w) with
  | .ok (i, _) => some i
  | .error _ => none

end Sys2Proof
end

