-- ==== Sys2Proof/Config.lean ====
section
/-! DEFINITION. What the spec leaves open (00_scope.md R11): the parameters of a construction, the values
State.reset takes for them, and the one free value, the controller buttons. -/

namespace Sys2Proof

/-- A byte store: (address, byte) pairs, addresses strictly rising, no byte equal to `Config.initByte`
(the form `Memory.wf` of WellFormed.lean). -/
abbrev Memory := List Host.Cell

/-- The two controller ports (10_state.md R42): `one` is 0x4016, `two` is 0x4017. -/
inductive Port where
  | one
  | two
  deriving DecidableEq, Repr

namespace Config

/-- RESET_PC where State.reset needs one. DESIGN CHOICE, unsafe, log entry 1: the spec leaves RESET_PC
open (92_eei_decisions.md D8); the programs of 95_test_vectors.md take 0x8000. -/
def resetPc : Nat := 0x8000

/-- What a cell that nothing has written and no parameter seeds reads as. DESIGN CHOICE, unsafe, log entry 2:
the spec leaves INIT_BYTE open (92_eei_decisions.md D9); `Params` carries any other contents. -/
def initByte : Byte := 0x00

/-- `buttons p k n`: whether button `k` of the controller at port `p` is pressed at the n-th read of a
controller port, counted by `State.buttonDraws`. A FREE VALUE with no body: the host input BUTTONS is "a draw
per read (free input, no law)" (60_exceptions.md R342). DESIGN CHOICE, safe, log entry 5. -/
opaque buttons : Port → Fin 8 → Nat → Bool

end Config

/-- The parameters of a construction (00_scope.md R11). INIT_BYTE is given as the cells that differ from
`Config.initByte`, on canonical addresses (20_memory.md R62, R91). -/
structure Params where
  /-- RESET_PC (D8). -/
  resetPc : Nat
  /-- VBLANK_CYCLES (D24), or none for a run with no driver (60_exceptions.md R330). Log entry 3. -/
  vblankCycles : Option Nat
  /-- INIT_BYTE of the CPU bus (D9). -/
  cpuInit : Memory
  /-- INIT_BYTE of the video bus (D9). -/
  videoInit : Memory
  /-- INIT_BYTE of sprite memory (D9). -/
  spriteInit : Memory
  deriving DecidableEq, Repr

/-- The parameters State.reset is built with: log entries 1, 2 and 3 (DESIGN CHOICE, unsafe). -/
def Params.default : Params :=
  { resetPc := Config.resetPc, vblankCycles := none, cpuInit := [], videoInit := [], spriteInit := [] }

end Sys2Proof
end

