-- ==== Sys2Proof/Machine/State.lean ====
section
/-! DEFINITION. The machine state (10_state.md R30), the faults (60_exceptions.md R320) and construction
(70_reset_and_hazards.md R360). -/

namespace Sys2Proof.Machine

/-- The execution-time faults (60_exceptions.md R320). Every one ends the run (R321); stopping is safe. -/
inductive Fault where
  /-- An access of either bus outside 0..0xFFFF, or an NMI entry with such a PC (20_memory.md R60). Safe. -/
  | addressOutOfRange (addr : Int)
  /-- A push with STK = 0 (48_stack_control.md R280); `pc0` is the opcode's address. Safe. -/
  | stackOverflow (pc0 : Int)
  /-- A pull with STK = 0xFF (48_stack_control.md R281). Safe. -/
  | stackUnderflow (pc0 : Int)
  /-- An instruction whose mode gave no effective address or no operand value (40_tick_and_addressing.md R160);
  unreachable with the fixed table, log entry 7. Safe. -/
  | missingEffectiveAddress (op : Byte) (pc0 : Int)
  /-- The fetch of a byte with no dictionary entry (30_encoding.md R117). Safe. -/
  | unknownOpcode (op : Byte) (pc0 : Int)
  deriving DecidableEq, Repr

/-- Why an instruction has no meaning. -/
inductive Refusal where
  /-- An instruction the model has not reached; raised by no arm of exec. Safe. -/
  | notModelled (mnemonic : String)
  deriving DecidableEq, Repr

/-- A trace entry: opcode byte, addressing mode, the opcode's address (40_tick_and_addressing.md R162). The mode's
name is `Mode.name`. -/
structure TraceEntry where
  opcode : Byte
  mode : Mode
  pc : Int
  deriving DecidableEq, Repr

/-- The state of one controller port (10_state.md R42). -/
structure Pad where
  /-- The button the next read returns. -/
  index : Fin 8
  /-- Bit 0 of the last byte written to the port, or none before any write. -/
  lastWrite : Option Bool
  deriving DecidableEq, Repr

/-- The machine state (10_state.md R30). The last two fields are the model's own. -/
structure State where
  /-- ACC, X, Y (10_state.md R31). -/
  acc : Byte
  x : Byte
  y : Byte
  /-- STK (10_state.md R32). -/
  stk : Byte
  /-- PC, an unbounded integer (10_state.md R33). -/
  pc : Int
  /-- STATUS (10_state.md R34, R35). -/
  status : Byte
  /-- CYC (10_state.md R39). -/
  cyc : Nat
  /-- The cells of the CPU bus, by canonical address (20_memory.md R61, R62). -/
  cpu : Memory
  /-- The cells of the video bus, by canonical address (20_memory.md R90, R91). -/
  video : Memory
  /-- Sprite memory (10_state.md R40). -/
  sprite : Memory
  /-- The latched video address and which of its two writes comes next (10_state.md R41); the latch may pass 0xFFFF
  (decision D37). -/
  vaddrLatch : Nat
  vaddrToggle : Bool
  /-- The controller ports 0x4016 and 0x4017 (10_state.md R42). -/
  padOne : Pad
  padTwo : Pad
  /-- The NMI state (10_state.md R43). -/
  nmiInFlight : Bool
  nmiCapturedSP : Byte
  /-- The vblank timer's accumulator (10_state.md R44). -/
  vblankCount : Nat
  /-- The trace ring, newest first (10_state.md R45). -/
  trace : List TraceEntry
  /-- The cartridge banks (10_state.md R46). -/
  prgBanks : List (List Byte)
  chrBanks : List (List Byte)
  /-- The first fault raised (10_state.md R47). -/
  fault : Option Fault
  /-- MODEL's own: VBLANK_CYCLES of the driver that runs after every tick, none where no driver is attached
  (00_scope.md R11, 60_exceptions.md R330). Log entry 3. -/
  vblankCycles : Option Nat
  /-- MODEL's own: how many button states have been drawn; indexes the free value `Config.buttons`. Log entry 5. -/
  buttonDraws : Nat
  deriving DecidableEq, Repr

/-- Construction (70_reset_and_hazards.md R360): every piece of state at its value in 10_state.md R49. nmiCapturedSP is
"unspecified" there and takes 0 (log entry 4). -/
def State.construct (p : Params) : State :=
  { acc := 0, x := 0, y := 0, stk := 0, pc := p.resetPc, status := 0, cyc := 0,
    cpu := p.cpuInit, video := p.videoInit, sprite := p.spriteInit,
    vaddrLatch := 0, vaddrToggle := false,
    padOne := ⟨0, none⟩, padTwo := ⟨0, none⟩,
    nmiInFlight := false, nmiCapturedSP := 0, vblankCount := 0,
    trace := [], prgBanks := [], chrBanks := [], fault := none,
    vblankCycles := p.vblankCycles, buttonDraws := 0 }

/-- The machine right after construction, before any load, with the parameters of `Params.default`. -/
def State.reset : State := State.construct Params.default

end Sys2Proof.Machine
end

