-- ==== Sys2Proof/Machine/Flags.lean ====
section
/-! DEFINITION. STATUS and its flags: the fields of the register (10_state.md R34, R35), the flag combinators
(R37) and `setZN` (R38). -/

namespace Sys2Proof.Machine

/-- The fields of STATUS (10_state.md R35). -/
inductive Flag where
  | C | Z | I | D | B | U | V | N
  deriving DecidableEq, Repr

/-- The bit of STATUS a flag stands at (10_state.md R34, R35). -/
def Flag.bit : Flag → Nat
  | .C => 0 | .Z => 1 | .I => 2 | .D => 3 | .B => 4 | .U => 5 | .V => 6 | .N => 7

/-- The mask of a flag (10_state.md R35). -/
def Flag.mask : Flag → Byte
  | .C => 0x01 | .Z => 0x02 | .I => 0x04 | .D => 0x08 | .B => 0x10 | .U => 0x20 | .V => 0x40 | .N => 0x80

/-- One bit of a STATUS byte (00_scope.md R15). -/
def getFlag (f : Flag) (status : Byte) : Bool := status.getLsbD f.bit

/-- Write one bit of a STATUS byte and leave the others (00_scope.md R15). -/
def putFlag (f : Flag) (b : Bool) (status : Byte) : Byte :=
  if b then status ||| f.mask else status &&& ~~~f.mask

/-- Flag access on the state (00_scope.md R15). -/
def State.flag (f : Flag) (s : State) : Bool := getFlag f s.status

def State.setFlag (f : Flag) (b : Bool) (s : State) : State := { s with status := putFlag f b s.status }

/-! The combinators, over an unbounded integer result (10_state.md R37). -/

/-- `carryAdd(r) = r[8]`, for a non-negative r. -/
def carryAdd (r : Int) : Bool := r.toNat.testBit 8

/-- `carryShiftRight(v) = v[0]`, on the operand before it is shifted. -/
def carryShiftRight (v : Byte) : Bool := v.getLsbD 0

/-- `carrySub(r) = 1 - r9[8]` where `r9 = r mod 512`: no borrow occurred. -/
def carrySub (r : Int) : Bool := !(r % 512).toNat.testBit 8

/-- The low 8 bits of a result. -/
def byteOf (r : Int) : Byte := BitVec.ofInt 8 r

/-- `zero(r)`: the low 8 bits are 0. -/
def zeroOf (r : Int) : Bool := decide (r % 256 = 0)

/-- `negative(r)`: bit 7 of the result. -/
def negativeOf (r : Int) : Bool := (byteOf r).getLsbD 7

/-- `overflow(a, b, r)`: both operands have the same sign and the result has the opposite one. -/
def overflowOf (a b : Byte) (r : Int) : Bool :=
  (a.getLsbD 7 == b.getLsbD 7) && ((byteOf r).getLsbD 7 != a.getLsbD 7)

/-- 0 or 1. -/
def bitInt (b : Bool) : Int := if b then 1 else 0

/-- `setZN(v)` on a STATUS byte (10_state.md R38). -/
def statusZN (v : Byte) (status : Byte) : Byte :=
  putFlag .N (negativeOf v.toNat) (putFlag .Z (zeroOf v.toNat) status)

/-- `setZN(v)` (10_state.md R38). -/
def State.setZN (v : Byte) (s : State) : State := { s with status := statusZN v s.status }

end Sys2Proof.Machine
end

