-- ==== Sys2Proof/Machine/Topology.lean ====
section
/-! DEFINITION. The wiring of the two buses: which cell an address resolves to (20_memory.md R61 to R65 and
R91 to R95) and which cells are controller ports (R81). -/

namespace Sys2Proof.Machine

/-- The canonical cell of a CPU-bus address: RAM folds modulo 0x0800, the video ports modulo 8, every other
address is its own cell (20_memory.md R62). -/
def canon (a : Nat) : Nat :=
  if a ≤ 0x1FFF then a % 0x0800
  else if a ≤ 0x3FFF then 0x2000 + a % 8
  else a

/-- The background-colour entries of the palette's second half fold onto its first half (20_memory.md R91,
R94). -/
def backgroundFold (p : Nat) : Nat :=
  if p = 0x3F10 ∨ p = 0x3F14 ∨ p = 0x3F18 ∨ p = 0x3F1C then p - 0x10 else p

/-- The canonical cell of a video-bus address (20_memory.md R91 to R95). -/
def vcanon (a : Nat) : Nat :=
  if 0x3000 ≤ a ∧ a ≤ 0x3EFF then a - 0x1000
  else if 0x3F00 ≤ a ∧ a ≤ 0x3FFF then backgroundFold (0x3F00 + a % 32)
  else a

/-- The controller port at a canonical CPU-bus cell, if it is one (20_memory.md R81). -/
def portAt (c : Nat) : Option Port :=
  if c = 0x4016 then some .one
  else if c = 0x4017 then some .two
  else none

end Sys2Proof.Machine
end

