-- ==== Sys2Proof/Machine/Ops.lean ====
section
/-! DEFINITION. The named operations every instruction is built from: results and faults, byte stores, the two buses
with their ports (20_memory.md, 60_exceptions.md section 5), the stack (48_stack_control.md section 1), and entering and
leaving an interrupt. -/

namespace Sys2Proof.Machine

/-! ### Results -/

/-- What an operation does: it goes on with a value and a state, or it raises a fault. -/
inductive Res (α : Type) where
  | ok (a : α) (s : State)
  | raise (f : Fault) (s : State)

/-- `raise F(info)`: the state after a raise is the faulted state, and `fault` keeps the first fault
(00_scope.md R17, 10_state.md R47). The writes made before the raise remain in that state (40_tick_and_addressing.md R142);
no step gives it out (log entry 6). -/
def raiseFault {α : Type} (f : Fault) (s : State) : Res α :=
  .raise f { s with fault := some (s.fault.getD f) }

/-- First this, then that; a raise ends both. -/
def Res.bind {α β : Type} (r : Res α) (k : α → State → Res β) : Res β :=
  match r with
  | .ok a s => k a s
  | .raise f s => .raise f s

/-- The host's view of a finished operation. -/
def Res.outcome {α : Type} : Res α → Host.Outcome State Fault Refusal
  | .ok _ s => .next s
  | .raise f _ => .fault f

/-! ### Byte stores -/

/-- The byte at a cell; an unlisted cell reads as `Config.initByte`. -/
def Memory.read : Memory → Nat → Byte
  | [], _ => Config.initByte
  | (b, v) :: rest, a => if a = b then v else Memory.read rest a

/-- Store a byte, keeping the canonical form `Memory.wf`. -/
def Memory.write : Memory → Nat → Byte → Memory
  | [], a, v => if v = Config.initByte then [] else [(a, v)]
  | (b, w) :: rest, a, v =>
    if a < b then (if v = Config.initByte then (b, w) :: rest else (a, v) :: (b, w) :: rest)
    else if a = b then (if v = Config.initByte then rest else (a, v) :: rest)
    else (b, w) :: Memory.write rest a v

/-! ### The registers named by a store or a transfer -/

/-- The stored byte of a canonical CPU-bus cell. -/
def State.cell (c : Nat) (s : State) : Byte := Memory.read s.cpu c

def State.setCell (c : Nat) (v : Byte) (s : State) : State := { s with cpu := Memory.write s.cpu c v }

/-- The stored byte at a CPU-bus address: what a plain read returns (20_memory.md R73). -/
def State.peek (a : Nat) (s : State) : Byte := s.cell (canon a)

/-- The stored byte at a video-bus address. -/
def State.vpeek (a : Nat) (s : State) : Byte := Memory.read s.video (vcanon a)

def State.pad (p : Port) (s : State) : Pad :=
  match p with
  | .one => s.padOne
  | .two => s.padTwo

def State.setPad (p : Port) (d : Pad) (s : State) : State :=
  match p with
  | .one => { s with padOne := d }
  | .two => { s with padTwo := d }

/-! ### The controller ports -/

/-- PadRead (60_exceptions.md R340): the next button of the fixed order, as the byte 0x00 or 0x01; the index goes on modulo 8.
The button's state is the free value `Config.buttons`, a new draw at every read (R342). -/
def padRead (p : Port) (s : State) : Byte × State :=
  let k := (s.pad p).index
  let pressed := Config.buttons p k s.buttonDraws
  (if pressed then 0x01 else 0x00,
    { s.setPad p { s.pad p with index := k + 1 } with buttonDraws := s.buttonDraws + 1 })

/-- PadWrite (60_exceptions.md R341): bit 0 going from 1 to 0 resets the index. -/
def padWrite (p : Port) (v : Byte) (s : State) : State :=
  let bit := v.getLsbD 0
  let index := if (s.pad p).lastWrite = some true ∧ bit = false then 0 else (s.pad p).index
  s.setPad p { index := index, lastWrite := some bit }

/-! ### The video bus -/

/-- VMemRead (00_scope.md R16, 20_memory.md R60, R90): every video cell is plain (R95). -/
def vmemRead (a : Int) (s : State) : Res Byte :=
  if 0 ≤ a ∧ a ≤ 0xFFFF then .ok (s.vpeek a.toNat) s else raiseFault (.addressOutOfRange a) s

/-- VMemWrite (00_scope.md R16, 20_memory.md R60, R90). -/
def vmemWrite (a : Int) (v : Byte) (s : State) : Res Unit :=
  if 0 ≤ a ∧ a ≤ 0xFFFF then .ok () { s with video := Memory.write s.video (vcanon a.toNat) v }
  else raiseFault (.addressOutOfRange a) s

/-! ### The video ports -/

/-- SpritePortWrite (20_memory.md R77): one byte of sprite memory at the index in cell 0x2003, which then goes on modulo 256. -/
def spritePortWrite (v : Byte) (s : State) : State :=
  let i := s.cell 0x2003
  { s with sprite := Memory.write s.sprite i.toNat v }.setCell 0x2003 (i + 1)

/-- AddrPortWrite (20_memory.md R78): the high byte, then the low byte, alternately for ever. -/
def addrPortWrite (v : Byte) (s : State) : State :=
  if s.vaddrToggle then
    { s with vaddrLatch := (s.vaddrLatch - s.vaddrLatch % 256) + v.toNat, vaddrToggle := false }
  else
    { s with vaddrLatch := v.toNat * 256 + s.vaddrLatch % 256, vaddrToggle := true }

/-- DataPortWrite (20_memory.md R79): a video-memory write at the latched address, which then goes on by 1 without wrap. -/
def dataPortWrite (v : Byte) (s : State) : Res Unit :=
  (vmemWrite s.vaddrLatch v s).bind fun _ s => .ok () { s with vaddrLatch := s.vaddrLatch + 1 }

/-! ### The CPU bus -/

/-- The write behaviour of a canonical cell, before the byte is stored (20_memory.md R74, R75). -/
def portWrite (c : Nat) (v : Byte) (s : State) : Res Unit :=
  if c = 0x2004 then .ok () (spritePortWrite v s)
  else if c = 0x2006 then .ok () (addrPortWrite v s)
  else if c = 0x2007 then dataPortWrite v s
  else
    match portAt c with
    | some p => .ok () (padWrite p v s)
    | none => .ok () s

/-- A read of a bus address in range: PadRead at a controller port, else the stored byte (20_memory.md R80). -/
def busRead (a : Nat) (s : State) : Byte × State :=
  match portAt (canon a) with
  | some p => padRead p s
  | none => (s.peek a, s)

/-- `MemRead(addr, 1)` (00_scope.md R16, 20_memory.md R80). -/
def memRead (a : Int) (s : State) : Res Byte :=
  if 0 ≤ a ∧ a ≤ 0xFFFF then .ok (busRead a.toNat s).1 (busRead a.toNat s).2
  else raiseFault (.addressOutOfRange a) s

/-- `MemWrite(addr, 1, v)` (00_scope.md R16, 20_memory.md R75): the write behaviour, then the store. -/
def memWrite (a : Int) (v : Byte) (s : State) : Res Unit :=
  if 0 ≤ a ∧ a ≤ 0xFFFF then
    (portWrite (canon a.toNat) v s).bind fun _ s => .ok () (s.setCell (canon a.toNat) v)
  else raiseFault (.addressOutOfRange a) s

/-- `lo + 256*hi` of two bytes read from memory (00_scope.md R16). -/
def addressOf (lo hi : Byte) : Nat := lo.toNat + 256 * hi.toNat

/-- `MemRead16(addr)`: two byte reads, low address first (00_scope.md R16). -/
def memRead16 (a : Int) (s : State) : Res Nat :=
  (memRead a s).bind fun lo s => (memRead (a + 1) s).bind fun hi s => .ok (addressOf lo hi) s

/-! ### Signed bytes and the bytes of an address -/

/-- `sext_8(b)` (00_scope.md R14). -/
def sext8 (b : Byte) : Int := if b.getLsbD 7 then (b.toNat : Int) - 256 else b.toNat

/-- `lo(v) = v[7:0]` (00_scope.md R13) of an integer; outside 0..0xFFFF see log entry 28. -/
def loByte (v : Int) : Byte := BitVec.ofInt 8 v

/-- `hi(v) = v[15:8]` (00_scope.md R13). -/
def hiByte (v : Int) : Byte := BitVec.ofInt 8 (v / 256)

/-! ### The stack -/

/-- Push (48_stack_control.md R280): checked before the write; `pc0` is what StackOverflow records. -/
def push (pc0 : Int) (v : Byte) (s : State) : Res Unit :=
  if s.stk = 0 then raiseFault (.stackOverflow pc0) s
  else (memWrite (0x0100 + s.stk.toNat) v s).bind fun _ s => .ok () { s with stk := s.stk - 1 }

/-- Pull (48_stack_control.md R281): checked before the read. -/
def pull (pc0 : Int) (s : State) : Res Byte :=
  if s.stk = 0xFF then raiseFault (.stackUnderflow pc0) s
  else memRead (0x0100 + (s.stk + 1).toNat) { s with stk := s.stk + 1 }

/-- `Push(hi(v)); Push(lo(v))`: high byte first (20_memory.md R69). -/
def pushAddress (pc0 : Int) (v : Int) (s : State) : Res Unit :=
  (push pc0 (hiByte v) s).bind fun _ s => push pc0 (loByte v) s

/-- `lo <- Pull(); hi <- Pull()`, as `lo + 256*hi`. -/
def pullAddress (pc0 : Int) (s : State) : Res Nat :=
  (pull pc0 s).bind fun lo s => (pull pc0 s).bind fun hi s => .ok (addressOf lo hi) s

/-! ### Interrupts -/

/-- Enter an interrupt, the sequence BRK and the NMI share: push the return address, high byte first, push STATUS as it stands,
set B where the entry does, set I, and load PC from the vector (48_stack_control.md R289, 60_exceptions.md R331). -/
def enterInterrupt (pc0 ret : Int) (setsB : Bool) (vector : Int) (s : State) : Res Unit :=
  (pushAddress pc0 ret s).bind fun _ s =>
  (push pc0 s.status s).bind fun _ s =>
  (memRead16 vector ((if setsB then s.setFlag .B true else s).setFlag .I true)).bind fun target s =>
  .ok () { s with pc := target }

/-- Return from an interrupt: pull STATUS, then PC (48_stack_control.md R290). -/
def returnFromInterrupt (pc0 : Int) (s : State) : Res Unit :=
  (pull pc0 s).bind fun status s =>
  (pullAddress pc0 { s with status := status }).bind fun target s =>
  .ok () { s with pc := target }

/-! ### Placing bytes for a fetch -/

/-- Store bytes in the cells at consecutive bus addresses from `a`, past no port behaviour (as a load does,
70_reset_and_hazards.md R369); an address outside 0..0xFFFF is left out. -/
def placeBytes : Int → List Byte → State → State
  | _, [], s => s
  | a, v :: vs, s =>
    placeBytes (a + 1) vs (if 0 ≤ a ∧ a ≤ 0xFFFF then s.setCell (canon a.toNat) v else s)

end Sys2Proof.Machine
end

