-- ==== Sys2Proof/Machine/Operands.lean ====
section
/-! DEFINITION. The addressing modes (40_tick_and_addressing.md R144 to R159), the contract check on a missing operand
(R160), and the tick around an instruction's own effect (R141, R143, R162). -/

namespace Sys2Proof.Machine

/-- The source's AddressingResult (40_tick_and_addressing.md R144). -/
structure Addressing where
  value : Option Byte
  ea : Option Nat
  /-- The operand is the accumulator. -/
  acc : Bool
  crossed : Bool
  deriving DecidableEq, Repr

/-- The effective address of a mode that forms one without a bus read that could have an effect, and whether it crossed a page
(40_tick_and_addressing.md R149 to R151, R153 to R155, R157, R158). The pointers of the two indirect-indexed modes lie in zero
page, where MemRead returns the stored byte and changes nothing (20_memory.md R63, R73; log entry 18). -/
def effectiveAddress (o : Operand) (s : State) : Option (Nat × Bool) :=
  match o with
  | .zeroPage b => some (b.toNat, false)
  | .zeroPageX b => some ((b.toNat + s.x.toNat) % 256, false)
  | .zeroPageY b => some ((b.toNat + s.y.toNat) % 256, false)
  | .absolute a => some (a.toNat, false)
  | .absoluteX a => some (a.toNat + s.x.toNat, decide ((lowByte a).toNat + s.x.toNat > 0xFF))
  | .absoluteY a => some (a.toNat + s.y.toNat, decide ((lowByte a).toNat + s.y.toNat > 0xFF))
  | .indexedIndirect b =>
    let z := (b.toNat + s.x.toNat) % 256
    some (addressOf (s.peek z) (s.peek ((z + 1) % 256)), false)
  | .indirectIndexed b =>
    let lo := s.peek b.toNat
    let base := addressOf lo (s.peek ((b.toNat + 1) % 256))
    some (base + s.y.toNat, decide (lo.toNat + s.y.toNat > 0xFF))
  | .implicit | .accumulator | .immediate _ | .relative _ | .indirect _ => none

/-- `Fetch(ea)`: the operand at the effective address, read only by the access variants that read
(40_tick_and_addressing.md R145). -/
def fetchAt (access : Access) (ea : Nat) (crossed : Bool) (s : State) : Res Addressing :=
  match access with
  | .read | .readModifyWrite =>
    (memRead ea s).bind fun v s => .ok { value := some v, ea := some ea, acc := false, crossed := crossed } s
  | .addressOnly | .none => .ok { value := none, ea := some ea, acc := false, crossed := crossed } s

/-- PC advanced past the full encoded instruction (30_encoding.md R111). -/
def State.advance (o : Operand) (s : State) : State := { s with pc := s.pc + o.mode.length }

/-- `Resolve(mode, access, pc0)` (40_tick_and_addressing.md R144 to R158), the operand bytes already fetched (log entry 20). -/
def resolve (o : Operand) (access : Access) (s : State) : Res Addressing :=
  match o with
  | .implicit => .ok { value := none, ea := none, acc := false, crossed := false } (s.advance o)
  | .accumulator => .ok { value := some s.acc, ea := none, acc := true, crossed := false } (s.advance o)
  | .immediate b | .relative b =>
    .ok { value := some b, ea := none, acc := false, crossed := false } (s.advance o)
  | .indirect a =>
    -- the high byte of the target comes from the pointer's own page (R156)
    (memRead (addressOf (lowByte a) (highByte a)) (s.advance o)).bind fun lo s =>
    (memRead (addressOf (lowByte a + 1) (highByte a)) s).bind fun hi s =>
    .ok { value := none, ea := some (addressOf lo hi), acc := false, crossed := false } s
  | .zeroPage _ | .zeroPageX _ | .zeroPageY _ | .absolute _ | .absoluteX _ | .absoluteY _
  | .indexedIndirect _ | .indirectIndexed _ =>
    match effectiveAddress o s with
    | some (ea, crossed) => fetchAt access ea crossed (s.advance o)
    | none => .ok { value := none, ea := none, acc := false, crossed := false } (s.advance o)

/-- What a fault of an instruction records: its opcode and its address. -/
structure Site where
  op : Byte
  pc0 : Int
  deriving DecidableEq, Repr

/-- An instruction's own effect, run on what its mode resolved; it answers whether it is a taken branch. -/
abbrev Effect := Site → Addressing → State → Res Bool

/-- Go on with `res.ea`; fail fast where the mode gave none (40_tick_and_addressing.md R160). -/
def withEa {α : Type} (site : Site) (res : Addressing) (s : State) (k : Nat → Res α) : Res α :=
  match res.ea with
  | some ea => k ea
  | none => raiseFault (.missingEffectiveAddress site.op site.pc0) s

/-- Go on with `res.value`; fail fast where the mode gave none. No instruction that consumes a value has such a mode
(log entry 7). -/
def withValue {α : Type} (site : Site) (res : Addressing) (s : State) (k : Byte → Res α) : Res α :=
  match res.value with
  | some v => k v
  | none => raiseFault (.missingEffectiveAddress site.op site.pc0) s

/-- Realized cycle count (40_tick_and_addressing.md R143). -/
def realizedCycles (e : Entry) (crossed taken : Bool) : Nat :=
  e.base + (if crossed then e.extra else 0) + (if taken then 1 else 0)

/-- The end of a completed tick: CYC and the trace (40_tick_and_addressing.md R141, R162). -/
def account (e : Entry) (pc0 : Int) (crossed taken : Bool) (s : State) : State :=
  { s with
    cyc := s.cyc + realizedCycles e crossed taken
    trace := ({ opcode := e.opcode, mode := e.mode, pc := pc0 } :: s.trace).take 100 }

/-- The tick after its fetch: resolve, execute, account (40_tick_and_addressing.md R141). -/
def tick (i : Instr) (effect : Effect) (s : State) : Res Unit :=
  (resolve i.operand i.entry.access s).bind fun res s1 =>
  (effect { op := i.entry.opcode, pc0 := s.pc } res s1).bind fun taken s2 =>
  .ok () (account i.entry s.pc res.crossed taken s2)

/-- The meaning of an instruction with effect `effect`. -/
def runTick (i : Instr) (effect : Effect) (s : State) : Host.Outcome State Fault Refusal :=
  (tick i effect s).outcome

end Sys2Proof.Machine
end

