-- ==== Sys2Proof/Machine/Arithmetic.lean ====
section
/-! DEFINITION. The meanings of the arithmetic (42_arithmetic.md R210 to R212). D has no effect (92_eei_decisions.md D4, log entry 11). Each instruction is one
definition over its mnemonic's effect, run by `runTick`. -/

namespace Sys2Proof.Machine

/-- AddCore: the add routine ADC and SBC share (R210). -/
def addCore (a b : Byte) (cin : Bool) (s : State) : State :=
  let r : Int := (a.toNat : Int) + b.toNat + bitInt cin
  State.setZN (byteOf r)
    { (s.setFlag .C (carryAdd r)).setFlag .V (overflowOf a b r) with acc := byteOf r }

/-- ADC: `AddCore(ACC, M, C)` (R211). -/
def effAdc (site : Site) (res : Addressing) (s : State) : Res Bool :=
  withValue site res s fun m => .ok false (addCore s.acc m (s.flag .C) s)

/-- SBC: `AddCore(ACC, ~M, C)` (R212). -/
def effSbc (site : Site) (res : Addressing) (s : State) : Res Bool :=
  withValue site res s fun m => .ok false (addCore s.acc (~~~m) (s.flag .C) s)

/-! ### The meanings of the opcode rows (30_encoding.md R115) -/

/-- 61: ADC IndexedIndirect (R211). -/
def execAdcIndX (b : Byte) (s : State) : Host.Outcome State Fault Refusal := runTick (.adcIndX b) effAdc s

/-- 65: ADC ZeroPage (R211). -/
def execAdcZp (b : Byte) (s : State) : Host.Outcome State Fault Refusal := runTick (.adcZp b) effAdc s

/-- 69: ADC Immediate (R211). -/
def execAdcImm (b : Byte) (s : State) : Host.Outcome State Fault Refusal := runTick (.adcImm b) effAdc s

/-- 6D: ADC Absolute (R211). -/
def execAdcAbs (a : Addr) (s : State) : Host.Outcome State Fault Refusal := runTick (.adcAbs a) effAdc s

/-- 71: ADC IndirectIndexed (R211). -/
def execAdcIndY (b : Byte) (s : State) : Host.Outcome State Fault Refusal := runTick (.adcIndY b) effAdc s

/-- 75: ADC ZeroPageX (R211). -/
def execAdcZpX (b : Byte) (s : State) : Host.Outcome State Fault Refusal := runTick (.adcZpX b) effAdc s

/-- 79: ADC AbsoluteY (R211). -/
def execAdcAbsY (a : Addr) (s : State) : Host.Outcome State Fault Refusal := runTick (.adcAbsY a) effAdc s

/-- 7D: ADC AbsoluteX (R211). -/
def execAdcAbsX (a : Addr) (s : State) : Host.Outcome State Fault Refusal := runTick (.adcAbsX a) effAdc s

/-- E1: SBC IndexedIndirect (R212). -/
def execSbcIndX (b : Byte) (s : State) : Host.Outcome State Fault Refusal := runTick (.sbcIndX b) effSbc s

/-- E5: SBC ZeroPage (R212). -/
def execSbcZp (b : Byte) (s : State) : Host.Outcome State Fault Refusal := runTick (.sbcZp b) effSbc s

/-- E9: SBC Immediate (R212). -/
def execSbcImm (b : Byte) (s : State) : Host.Outcome State Fault Refusal := runTick (.sbcImm b) effSbc s

/-- ED: SBC Absolute (R212). -/
def execSbcAbs (a : Addr) (s : State) : Host.Outcome State Fault Refusal := runTick (.sbcAbs a) effSbc s

/-- F1: SBC IndirectIndexed (R212). -/
def execSbcIndY (b : Byte) (s : State) : Host.Outcome State Fault Refusal := runTick (.sbcIndY b) effSbc s

/-- F5: SBC ZeroPageX (R212). -/
def execSbcZpX (b : Byte) (s : State) : Host.Outcome State Fault Refusal := runTick (.sbcZpX b) effSbc s

/-- F9: SBC AbsoluteY (R212). -/
def execSbcAbsY (a : Addr) (s : State) : Host.Outcome State Fault Refusal := runTick (.sbcAbsY a) effSbc s

/-- FD: SBC AbsoluteX (R212). -/
def execSbcAbsX (a : Addr) (s : State) : Host.Outcome State Fault Refusal := runTick (.sbcAbsX a) effSbc s

end Sys2Proof.Machine
end

