-- ==== Sys2Proof/Machine/Branch.lean ====
section
/-! DEFINITION. The meanings of the branches (47_branch.md R260 to R268). Each instruction is one
definition over its mnemonic's effect, run by `runTick`. -/

namespace Sys2Proof.Machine

/-- Branch: add the signed offset to the advanced PC only if the flag has the wanted value; taken or not (R260). No wrap at 0 or
0x10000 (decision D10). -/
def branch (f : Flag) (want : Bool) (site : Site) (res : Addressing) (s : State) : Res Bool :=
  withValue site res s fun b1 =>
    if s.flag f = want then .ok true { s with pc := s.pc + sext8 b1 } else .ok false s

/-- BCC: `Branch(C, 0, res)` (R261). -/
def effBcc (site : Site) (res : Addressing) (s : State) : Res Bool := branch .C false site res s

/-- BCS: `Branch(C, 1, res)` (R262). -/
def effBcs (site : Site) (res : Addressing) (s : State) : Res Bool := branch .C true site res s

/-- BEQ: `Branch(Z, 1, res)` (R263). -/
def effBeq (site : Site) (res : Addressing) (s : State) : Res Bool := branch .Z true site res s

/-- BNE: `Branch(Z, 0, res)` (R264). -/
def effBne (site : Site) (res : Addressing) (s : State) : Res Bool := branch .Z false site res s

/-- BMI: `Branch(N, 1, res)` (R265). -/
def effBmi (site : Site) (res : Addressing) (s : State) : Res Bool := branch .N true site res s

/-- BPL: `Branch(N, 0, res)` (R266). -/
def effBpl (site : Site) (res : Addressing) (s : State) : Res Bool := branch .N false site res s

/-- BVC: `Branch(V, 0, res)` (R267). -/
def effBvc (site : Site) (res : Addressing) (s : State) : Res Bool := branch .V false site res s

/-- BVS: `Branch(V, 1, res)` (R268). -/
def effBvs (site : Site) (res : Addressing) (s : State) : Res Bool := branch .V true site res s

/-! ### The meanings of the opcode rows (30_encoding.md R115) -/

/-- 90: BCC Relative (R261). -/
def execBcc (b : Byte) (s : State) : Host.Outcome State Fault Refusal := runTick (.bcc b) effBcc s

/-- B0: BCS Relative (R262). -/
def execBcs (b : Byte) (s : State) : Host.Outcome State Fault Refusal := runTick (.bcs b) effBcs s

/-- F0: BEQ Relative (R263). -/
def execBeq (b : Byte) (s : State) : Host.Outcome State Fault Refusal := runTick (.beq b) effBeq s

/-- D0: BNE Relative (R264). -/
def execBne (b : Byte) (s : State) : Host.Outcome State Fault Refusal := runTick (.bne b) effBne s

/-- 30: BMI Relative (R265). -/
def execBmi (b : Byte) (s : State) : Host.Outcome State Fault Refusal := runTick (.bmi b) effBmi s

/-- 10: BPL Relative (R266). -/
def execBpl (b : Byte) (s : State) : Host.Outcome State Fault Refusal := runTick (.bpl b) effBpl s

/-- 50: BVC Relative (R267). -/
def execBvc (b : Byte) (s : State) : Host.Outcome State Fault Refusal := runTick (.bvc b) effBvc s

/-- 70: BVS Relative (R268). -/
def execBvs (b : Byte) (s : State) : Host.Outcome State Fault Refusal := runTick (.bvs b) effBvs s

end Sys2Proof.Machine
end

