-- ==== Sys2Proof/Machine/Compare.lean ====
section
/-! DEFINITION. The meanings of the compare (45_compare.md R240 to R243). Each instruction is one
definition over its mnemonic's effect, run by `runTick`. -/

namespace Sys2Proof.Machine

/-- Compare: `t <- reg - m`; C, Z and N of t; nothing else is written (R240). -/
def compareFlags (reg m : Byte) (s : State) : State :=
  let t : Int := (reg.toNat : Int) - m.toNat
  ((s.setFlag .C (carrySub t)).setFlag .Z (zeroOf t)).setFlag .N (negativeOf t)

/-- CMP: `Compare(ACC, res.value)` (R241). -/
def effCmp (site : Site) (res : Addressing) (s : State) : Res Bool :=
  withValue site res s fun m => .ok false (compareFlags s.acc m s)

/-- CPX: `Compare(X, res.value)` (R242). -/
def effCpx (site : Site) (res : Addressing) (s : State) : Res Bool :=
  withValue site res s fun m => .ok false (compareFlags s.x m s)

/-- CPY: `Compare(Y, res.value)` (R243). -/
def effCpy (site : Site) (res : Addressing) (s : State) : Res Bool :=
  withValue site res s fun m => .ok false (compareFlags s.y m s)

/-! ### The meanings of the opcode rows (30_encoding.md R115) -/

/-- C1: CMP IndexedIndirect (R241). -/
def execCmpIndX (b : Byte) (s : State) : Host.Outcome State Fault Refusal := runTick (.cmpIndX b) effCmp s

/-- C5: CMP ZeroPage (R241). -/
def execCmpZp (b : Byte) (s : State) : Host.Outcome State Fault Refusal := runTick (.cmpZp b) effCmp s

/-- C9: CMP Immediate (R241). -/
def execCmpImm (b : Byte) (s : State) : Host.Outcome State Fault Refusal := runTick (.cmpImm b) effCmp s

/-- CD: CMP Absolute (R241). -/
def execCmpAbs (a : Addr) (s : State) : Host.Outcome State Fault Refusal := runTick (.cmpAbs a) effCmp s

/-- D1: CMP IndirectIndexed (R241). -/
def execCmpIndY (b : Byte) (s : State) : Host.Outcome State Fault Refusal := runTick (.cmpIndY b) effCmp s

/-- D5: CMP ZeroPageX (R241). -/
def execCmpZpX (b : Byte) (s : State) : Host.Outcome State Fault Refusal := runTick (.cmpZpX b) effCmp s

/-- D9: CMP AbsoluteY (R241). -/
def execCmpAbsY (a : Addr) (s : State) : Host.Outcome State Fault Refusal := runTick (.cmpAbsY a) effCmp s

/-- DD: CMP AbsoluteX (R241). -/
def execCmpAbsX (a : Addr) (s : State) : Host.Outcome State Fault Refusal := runTick (.cmpAbsX a) effCmp s

/-- E0: CPX Immediate (R242). -/
def execCpxImm (b : Byte) (s : State) : Host.Outcome State Fault Refusal := runTick (.cpxImm b) effCpx s

/-- E4: CPX ZeroPage (R242). -/
def execCpxZp (b : Byte) (s : State) : Host.Outcome State Fault Refusal := runTick (.cpxZp b) effCpx s

/-- EC: CPX Absolute (R242). -/
def execCpxAbs (a : Addr) (s : State) : Host.Outcome State Fault Refusal := runTick (.cpxAbs a) effCpx s

/-- C0: CPY Immediate (R243). -/
def execCpyImm (b : Byte) (s : State) : Host.Outcome State Fault Refusal := runTick (.cpyImm b) effCpy s

/-- C4: CPY ZeroPage (R243). -/
def execCpyZp (b : Byte) (s : State) : Host.Outcome State Fault Refusal := runTick (.cpyZp b) effCpy s

/-- CC: CPY Absolute (R243). -/
def execCpyAbs (a : Addr) (s : State) : Host.Outcome State Fault Refusal := runTick (.cpyAbs a) effCpy s

end Sys2Proof.Machine
end

