-- ==== Sys2Proof/Machine/FlagsTransfer.lean ====
section
/-! DEFINITION. The meanings of the flag set and clear, register transfers, NOP (49_flags_transfer_nop.md R300 to R313). Each instruction is one
definition over its mnemonic's effect, run by `runTick`. -/

namespace Sys2Proof.Machine

/-- CLC: `C <- 0` (R300). -/
def effClc (_ : Site) (_ : Addressing) (s : State) : Res Bool := .ok false (s.setFlag .C false)

/-- SEC: `C <- 1` (R301). -/
def effSec (_ : Site) (_ : Addressing) (s : State) : Res Bool := .ok false (s.setFlag .C true)

/-- CLI: `I <- 0` (R302). -/
def effCli (_ : Site) (_ : Addressing) (s : State) : Res Bool := .ok false (s.setFlag .I false)

/-- SEI: `I <- 1` (R303). -/
def effSei (_ : Site) (_ : Addressing) (s : State) : Res Bool := .ok false (s.setFlag .I true)

/-- CLD: `D <- 0` (R304). -/
def effCld (_ : Site) (_ : Addressing) (s : State) : Res Bool := .ok false (s.setFlag .D false)

/-- SED: `D <- 1` (R305). -/
def effSed (_ : Site) (_ : Addressing) (s : State) : Res Bool := .ok false (s.setFlag .D true)

/-- CLV: `V <- 0` (R306). -/
def effClv (_ : Site) (_ : Addressing) (s : State) : Res Bool := .ok false (s.setFlag .V false)

/-- TAX: `X <- ACC; setZN(X)` (R307). -/
def effTax (_ : Site) (_ : Addressing) (s : State) : Res Bool := .ok false (State.setZN s.acc { s with x := s.acc })

/-- TAY: `Y <- ACC; setZN(Y)` (R308). -/
def effTay (_ : Site) (_ : Addressing) (s : State) : Res Bool := .ok false (State.setZN s.acc { s with y := s.acc })

/-- TXA: `ACC <- X; setZN(ACC)` (R309). -/
def effTxa (_ : Site) (_ : Addressing) (s : State) : Res Bool := .ok false (State.setZN s.x { s with acc := s.x })

/-- TYA: `ACC <- Y; setZN(ACC)` (R310). -/
def effTya (_ : Site) (_ : Addressing) (s : State) : Res Bool := .ok false (State.setZN s.y { s with acc := s.y })

/-- TSX: `X <- STK; setZN(X)` (R311). -/
def effTsx (_ : Site) (_ : Addressing) (s : State) : Res Bool := .ok false (State.setZN s.stk { s with x := s.stk })

/-- TXS: `STK <- X`, no flag (R312). -/
def effTxs (_ : Site) (_ : Addressing) (s : State) : Res Bool := .ok false { s with stk := s.x }

/-- NOP: nothing; the mode has advanced PC (R313). -/
def effNop (_ : Site) (_ : Addressing) (s : State) : Res Bool := .ok false s

/-! ### The meanings of the opcode rows (30_encoding.md R115) -/

/-- 18: CLC (R300). -/
def execClc (s : State) : Host.Outcome State Fault Refusal := runTick .clc effClc s

/-- 38: SEC (R301). -/
def execSec (s : State) : Host.Outcome State Fault Refusal := runTick .sec effSec s

/-- 58: CLI (R302). -/
def execCli (s : State) : Host.Outcome State Fault Refusal := runTick .cli effCli s

/-- 78: SEI (R303). -/
def execSei (s : State) : Host.Outcome State Fault Refusal := runTick .sei effSei s

/-- D8: CLD (R304). -/
def execCld (s : State) : Host.Outcome State Fault Refusal := runTick .cld effCld s

/-- F8: SED (R305). -/
def execSed (s : State) : Host.Outcome State Fault Refusal := runTick .sed effSed s

/-- B8: CLV (R306). -/
def execClv (s : State) : Host.Outcome State Fault Refusal := runTick .clv effClv s

/-- AA: TAX (R307). -/
def execTax (s : State) : Host.Outcome State Fault Refusal := runTick .tax effTax s

/-- A8: TAY (R308). -/
def execTay (s : State) : Host.Outcome State Fault Refusal := runTick .tay effTay s

/-- 8A: TXA (R309). -/
def execTxa (s : State) : Host.Outcome State Fault Refusal := runTick .txa effTxa s

/-- 98: TYA (R310). -/
def execTya (s : State) : Host.Outcome State Fault Refusal := runTick .tya effTya s

/-- BA: TSX (R311). -/
def execTsx (s : State) : Host.Outcome State Fault Refusal := runTick .tsx effTsx s

/-- 9A: TXS (R312). -/
def execTxs (s : State) : Host.Outcome State Fault Refusal := runTick .txs effTxs s

/-- EA: NOP (R313). -/
def execNop (s : State) : Host.Outcome State Fault Refusal := runTick .nop effNop s

end Sys2Proof.Machine
end

