-- ==== Sys2Proof/Machine/IncDec.lean ====
section
/-! DEFINITION. The meanings of the increment and decrement (46_incdec.md R250 to R256). Each instruction is one
definition over its mnemonic's effect, run by `runTick`. -/

namespace Sys2Proof.Machine

/-- Step: `(v + d) mod 256` (R250); the callers set Z and N of it. -/
def stepByte (v : Byte) (d : Int) : Byte := byteOf ((v.toNat : Int) + d)

/-- Increment or decrement memory: one read, done by the mode, and one write (R251, R252). -/
def stepMemory (d : Int) (site : Site) (res : Addressing) (s : State) : Res Bool :=
  withValue site res s fun v =>
    withEa site res (s.setZN (stepByte v d)) fun ea =>
      (memWrite ea (stepByte v d) (s.setZN (stepByte v d))).bind fun _ s => .ok false s

/-- INC (R251). -/
def effInc (site : Site) (res : Addressing) (s : State) : Res Bool := stepMemory 1 site res s

/-- DEC (R252). -/
def effDec (site : Site) (res : Addressing) (s : State) : Res Bool := stepMemory (-1) site res s

/-- INX: `X <- Step(X, +1)` (R253). -/
def effInx (_ : Site) (_ : Addressing) (s : State) : Res Bool :=
  .ok false (State.setZN (stepByte s.x 1) { s with x := stepByte s.x 1 })

/-- INY: `Y <- Step(Y, +1)` (R254). -/
def effIny (_ : Site) (_ : Addressing) (s : State) : Res Bool :=
  .ok false (State.setZN (stepByte s.y 1) { s with y := stepByte s.y 1 })

/-- DEX: `X <- Step(X, -1)` (R255). -/
def effDex (_ : Site) (_ : Addressing) (s : State) : Res Bool :=
  .ok false (State.setZN (stepByte s.x (-1)) { s with x := stepByte s.x (-1) })

/-- DEY: `Y <- Step(Y, -1)` (R256). -/
def effDey (_ : Site) (_ : Addressing) (s : State) : Res Bool :=
  .ok false (State.setZN (stepByte s.y (-1)) { s with y := stepByte s.y (-1) })

/-! ### The meanings of the opcode rows (30_encoding.md R115) -/

/-- E6: INC ZeroPage (R251). -/
def execIncZp (b : Byte) (s : State) : Host.Outcome State Fault Refusal := runTick (.incZp b) effInc s

/-- EE: INC Absolute (R251). -/
def execIncAbs (a : Addr) (s : State) : Host.Outcome State Fault Refusal := runTick (.incAbs a) effInc s

/-- F6: INC ZeroPageX (R251). -/
def execIncZpX (b : Byte) (s : State) : Host.Outcome State Fault Refusal := runTick (.incZpX b) effInc s

/-- FE: INC AbsoluteX (R251). -/
def execIncAbsX (a : Addr) (s : State) : Host.Outcome State Fault Refusal := runTick (.incAbsX a) effInc s

/-- C6: DEC ZeroPage (R252). -/
def execDecZp (b : Byte) (s : State) : Host.Outcome State Fault Refusal := runTick (.decZp b) effDec s

/-- CE: DEC Absolute (R252). -/
def execDecAbs (a : Addr) (s : State) : Host.Outcome State Fault Refusal := runTick (.decAbs a) effDec s

/-- D6: DEC ZeroPageX (R252). -/
def execDecZpX (b : Byte) (s : State) : Host.Outcome State Fault Refusal := runTick (.decZpX b) effDec s

/-- DE: DEC AbsoluteX (R252). -/
def execDecAbsX (a : Addr) (s : State) : Host.Outcome State Fault Refusal := runTick (.decAbsX a) effDec s

/-- E8: INX (R253). -/
def execInx (s : State) : Host.Outcome State Fault Refusal := runTick .inx effInx s

/-- C8: INY (R254). -/
def execIny (s : State) : Host.Outcome State Fault Refusal := runTick .iny effIny s

/-- CA: DEX (R255). -/
def execDex (s : State) : Host.Outcome State Fault Refusal := runTick .dex effDex s

/-- 88: DEY (R256). -/
def execDey (s : State) : Host.Outcome State Fault Refusal := runTick .dey effDey s

end Sys2Proof.Machine
end

