-- ==== Sys2Proof/Machine/LoadStore.lean ====
section
/-! DEFINITION. The meanings of the loads and stores (41_load_store.md R200 to R205). Each instruction is one
definition over its mnemonic's effect, run by `runTick`. -/

namespace Sys2Proof.Machine

/-- LDA: `ACC <- res.value; setZN(ACC)` (R200). -/
def effLda (site : Site) (res : Addressing) (s : State) : Res Bool :=
  withValue site res s fun v => .ok false (State.setZN v { s with acc := v })

/-- LDX: `X <- res.value; setZN(X)` (R201). -/
def effLdx (site : Site) (res : Addressing) (s : State) : Res Bool :=
  withValue site res s fun v => .ok false (State.setZN v { s with x := v })

/-- LDY: `Y <- res.value; setZN(Y)` (R202). -/
def effLdy (site : Site) (res : Addressing) (s : State) : Res Bool :=
  withValue site res s fun v => .ok false (State.setZN v { s with y := v })

/-- Store a byte at the effective address: what STA, STX and STY share. -/
def storeAt (site : Site) (res : Addressing) (v : Byte) (s : State) : Res Bool :=
  withEa site res s fun ea => (memWrite ea v s).bind fun _ s => .ok false s

/-- STA: `MemWrite(res.ea, 1, ACC)` (R203). -/
def effSta (site : Site) (res : Addressing) (s : State) : Res Bool := storeAt site res s.acc s

/-- STX: `MemWrite(res.ea, 1, X)` (R204). -/
def effStx (site : Site) (res : Addressing) (s : State) : Res Bool := storeAt site res s.x s

/-- STY: `MemWrite(res.ea, 1, Y)` (R205). -/
def effSty (site : Site) (res : Addressing) (s : State) : Res Bool := storeAt site res s.y s

/-! ### The meanings of the opcode rows (30_encoding.md R115) -/

/-- A1: LDA IndexedIndirect (R200). -/
def execLdaIndX (b : Byte) (s : State) : Host.Outcome State Fault Refusal := runTick (.ldaIndX b) effLda s

/-- A5: LDA ZeroPage (R200). -/
def execLdaZp (b : Byte) (s : State) : Host.Outcome State Fault Refusal := runTick (.ldaZp b) effLda s

/-- A9: LDA Immediate (R200). -/
def execLdaImm (b : Byte) (s : State) : Host.Outcome State Fault Refusal := runTick (.ldaImm b) effLda s

/-- AD: LDA Absolute (R200). -/
def execLdaAbs (a : Addr) (s : State) : Host.Outcome State Fault Refusal := runTick (.ldaAbs a) effLda s

/-- B1: LDA IndirectIndexed (R200). -/
def execLdaIndY (b : Byte) (s : State) : Host.Outcome State Fault Refusal := runTick (.ldaIndY b) effLda s

/-- B5: LDA ZeroPageX (R200). -/
def execLdaZpX (b : Byte) (s : State) : Host.Outcome State Fault Refusal := runTick (.ldaZpX b) effLda s

/-- B9: LDA AbsoluteY (R200). -/
def execLdaAbsY (a : Addr) (s : State) : Host.Outcome State Fault Refusal := runTick (.ldaAbsY a) effLda s

/-- BD: LDA AbsoluteX (R200). -/
def execLdaAbsX (a : Addr) (s : State) : Host.Outcome State Fault Refusal := runTick (.ldaAbsX a) effLda s

/-- A2: LDX Immediate (R201). -/
def execLdxImm (b : Byte) (s : State) : Host.Outcome State Fault Refusal := runTick (.ldxImm b) effLdx s

/-- A6: LDX ZeroPage (R201). -/
def execLdxZp (b : Byte) (s : State) : Host.Outcome State Fault Refusal := runTick (.ldxZp b) effLdx s

/-- AE: LDX Absolute (R201). -/
def execLdxAbs (a : Addr) (s : State) : Host.Outcome State Fault Refusal := runTick (.ldxAbs a) effLdx s

/-- B6: LDX ZeroPageY (R201). -/
def execLdxZpY (b : Byte) (s : State) : Host.Outcome State Fault Refusal := runTick (.ldxZpY b) effLdx s

/-- BE: LDX AbsoluteY (R201). -/
def execLdxAbsY (a : Addr) (s : State) : Host.Outcome State Fault Refusal := runTick (.ldxAbsY a) effLdx s

/-- A0: LDY Immediate (R202). -/
def execLdyImm (b : Byte) (s : State) : Host.Outcome State Fault Refusal := runTick (.ldyImm b) effLdy s

/-- A4: LDY ZeroPage (R202). -/
def execLdyZp (b : Byte) (s : State) : Host.Outcome State Fault Refusal := runTick (.ldyZp b) effLdy s

/-- AC: LDY Absolute (R202). -/
def execLdyAbs (a : Addr) (s : State) : Host.Outcome State Fault Refusal := runTick (.ldyAbs a) effLdy s

/-- B4: LDY ZeroPageX (R202). -/
def execLdyZpX (b : Byte) (s : State) : Host.Outcome State Fault Refusal := runTick (.ldyZpX b) effLdy s

/-- BC: LDY AbsoluteX (R202). -/
def execLdyAbsX (a : Addr) (s : State) : Host.Outcome State Fault Refusal := runTick (.ldyAbsX a) effLdy s

/-- 81: STA IndexedIndirect (R203). -/
def execStaIndX (b : Byte) (s : State) : Host.Outcome State Fault Refusal := runTick (.staIndX b) effSta s

/-- 85: STA ZeroPage (R203). -/
def execStaZp (b : Byte) (s : State) : Host.Outcome State Fault Refusal := runTick (.staZp b) effSta s

/-- 8D: STA Absolute (R203). -/
def execStaAbs (a : Addr) (s : State) : Host.Outcome State Fault Refusal := runTick (.staAbs a) effSta s

/-- 91: STA IndirectIndexed (R203). -/
def execStaIndY (b : Byte) (s : State) : Host.Outcome State Fault Refusal := runTick (.staIndY b) effSta s

/-- 95: STA ZeroPageX (R203). -/
def execStaZpX (b : Byte) (s : State) : Host.Outcome State Fault Refusal := runTick (.staZpX b) effSta s

/-- 99: STA AbsoluteY (R203). -/
def execStaAbsY (a : Addr) (s : State) : Host.Outcome State Fault Refusal := runTick (.staAbsY a) effSta s

/-- 9D: STA AbsoluteX (R203). -/
def execStaAbsX (a : Addr) (s : State) : Host.Outcome State Fault Refusal := runTick (.staAbsX a) effSta s

/-- 86: STX ZeroPage (R204). -/
def execStxZp (b : Byte) (s : State) : Host.Outcome State Fault Refusal := runTick (.stxZp b) effStx s

/-- 8E: STX Absolute (R204). -/
def execStxAbs (a : Addr) (s : State) : Host.Outcome State Fault Refusal := runTick (.stxAbs a) effStx s

/-- 96: STX ZeroPageY (R204). -/
def execStxZpY (b : Byte) (s : State) : Host.Outcome State Fault Refusal := runTick (.stxZpY b) effStx s

/-- 84: STY ZeroPage (R205). -/
def execStyZp (b : Byte) (s : State) : Host.Outcome State Fault Refusal := runTick (.styZp b) effSty s

/-- 8C: STY Absolute (R205). -/
def execStyAbs (a : Addr) (s : State) : Host.Outcome State Fault Refusal := runTick (.styAbs a) effSty s

/-- 94: STY ZeroPageX (R205). -/
def execStyZpX (b : Byte) (s : State) : Host.Outcome State Fault Refusal := runTick (.styZpX b) effSty s

end Sys2Proof.Machine
end

