-- ==== Sys2Proof/Machine/Logical.lean ====
section
/-! DEFINITION. The meanings of the logical operations (43_logical.md R220 to R223). Each instruction is one
definition over its mnemonic's effect, run by `runTick`. -/

namespace Sys2Proof.Machine

/-- A logical result in ACC, with setZN. -/
def logicalResult (v : Byte) (s : State) : State := State.setZN v { s with acc := v }

/-- AND: `ACC <- ACC & M; setZN(ACC)` (R220). -/
def effAnd (site : Site) (res : Addressing) (s : State) : Res Bool :=
  withValue site res s fun m => .ok false (logicalResult (s.acc &&& m) s)

/-- ORA: `ACC <- ACC | M; setZN(ACC)` (R221). -/
def effOra (site : Site) (res : Addressing) (s : State) : Res Bool :=
  withValue site res s fun m => .ok false (logicalResult (s.acc ||| m) s)

/-- EOR: `ACC <- ACC ^ M; setZN(ACC)` (R222). -/
def effEor (site : Site) (res : Addressing) (s : State) : Res Bool :=
  withValue site res s fun m => .ok false (logicalResult (s.acc ^^^ m) s)

/-- BIT: `Z <- zero(ACC & M); V <- M[6]; N <- M[7]` (R223). -/
def effBit (site : Site) (res : Addressing) (s : State) : Res Bool :=
  withValue site res s fun m =>
    .ok false
      (((s.setFlag .Z (zeroOf (s.acc &&& m).toNat)).setFlag .V (m.getLsbD 6)).setFlag .N (m.getLsbD 7))

/-! ### The meanings of the opcode rows (30_encoding.md R115) -/

/-- 21: AND IndexedIndirect (R220). -/
def execAndIndX (b : Byte) (s : State) : Host.Outcome State Fault Refusal := runTick (.andIndX b) effAnd s

/-- 25: AND ZeroPage (R220). -/
def execAndZp (b : Byte) (s : State) : Host.Outcome State Fault Refusal := runTick (.andZp b) effAnd s

/-- 29: AND Immediate (R220). -/
def execAndImm (b : Byte) (s : State) : Host.Outcome State Fault Refusal := runTick (.andImm b) effAnd s

/-- 2D: AND Absolute (R220). -/
def execAndAbs (a : Addr) (s : State) : Host.Outcome State Fault Refusal := runTick (.andAbs a) effAnd s

/-- 31: AND IndirectIndexed (R220). -/
def execAndIndY (b : Byte) (s : State) : Host.Outcome State Fault Refusal := runTick (.andIndY b) effAnd s

/-- 35: AND ZeroPageX (R220). -/
def execAndZpX (b : Byte) (s : State) : Host.Outcome State Fault Refusal := runTick (.andZpX b) effAnd s

/-- 39: AND AbsoluteY (R220). -/
def execAndAbsY (a : Addr) (s : State) : Host.Outcome State Fault Refusal := runTick (.andAbsY a) effAnd s

/-- 3D: AND AbsoluteX (R220). -/
def execAndAbsX (a : Addr) (s : State) : Host.Outcome State Fault Refusal := runTick (.andAbsX a) effAnd s

/-- 01: ORA IndexedIndirect (R221). -/
def execOraIndX (b : Byte) (s : State) : Host.Outcome State Fault Refusal := runTick (.oraIndX b) effOra s

/-- 05: ORA ZeroPage (R221). -/
def execOraZp (b : Byte) (s : State) : Host.Outcome State Fault Refusal := runTick (.oraZp b) effOra s

/-- 09: ORA Immediate (R221). -/
def execOraImm (b : Byte) (s : State) : Host.Outcome State Fault Refusal := runTick (.oraImm b) effOra s

/-- 0D: ORA Absolute (R221). -/
def execOraAbs (a : Addr) (s : State) : Host.Outcome State Fault Refusal := runTick (.oraAbs a) effOra s

/-- 11: ORA IndirectIndexed (R221). -/
def execOraIndY (b : Byte) (s : State) : Host.Outcome State Fault Refusal := runTick (.oraIndY b) effOra s

/-- 15: ORA ZeroPageX (R221). -/
def execOraZpX (b : Byte) (s : State) : Host.Outcome State Fault Refusal := runTick (.oraZpX b) effOra s

/-- 19: ORA AbsoluteY (R221). -/
def execOraAbsY (a : Addr) (s : State) : Host.Outcome State Fault Refusal := runTick (.oraAbsY a) effOra s

/-- 1D: ORA AbsoluteX (R221). -/
def execOraAbsX (a : Addr) (s : State) : Host.Outcome State Fault Refusal := runTick (.oraAbsX a) effOra s

/-- 41: EOR IndexedIndirect (R222). -/
def execEorIndX (b : Byte) (s : State) : Host.Outcome State Fault Refusal := runTick (.eorIndX b) effEor s

/-- 45: EOR ZeroPage (R222). -/
def execEorZp (b : Byte) (s : State) : Host.Outcome State Fault Refusal := runTick (.eorZp b) effEor s

/-- 49: EOR Immediate (R222). -/
def execEorImm (b : Byte) (s : State) : Host.Outcome State Fault Refusal := runTick (.eorImm b) effEor s

/-- 4D: EOR Absolute (R222). -/
def execEorAbs (a : Addr) (s : State) : Host.Outcome State Fault Refusal := runTick (.eorAbs a) effEor s

/-- 51: EOR IndirectIndexed (R222). -/
def execEorIndY (b : Byte) (s : State) : Host.Outcome State Fault Refusal := runTick (.eorIndY b) effEor s

/-- 55: EOR ZeroPageX (R222). -/
def execEorZpX (b : Byte) (s : State) : Host.Outcome State Fault Refusal := runTick (.eorZpX b) effEor s

/-- 59: EOR AbsoluteY (R222). -/
def execEorAbsY (a : Addr) (s : State) : Host.Outcome State Fault Refusal := runTick (.eorAbsY a) effEor s

/-- 5D: EOR AbsoluteX (R222). -/
def execEorAbsX (a : Addr) (s : State) : Host.Outcome State Fault Refusal := runTick (.eorAbsX a) effEor s

/-- 24: BIT ZeroPage (R223). -/
def execBitZp (b : Byte) (s : State) : Host.Outcome State Fault Refusal := runTick (.bitZp b) effBit s

/-- 2C: BIT Absolute (R223). -/
def execBitAbs (a : Addr) (s : State) : Host.Outcome State Fault Refusal := runTick (.bitAbs a) effBit s

end Sys2Proof.Machine
end

