-- ==== Sys2Proof/Machine/Shift.lean ====
section
/-! DEFINITION. The meanings of the shifts and rotates (44_shift_rotate.md R230 to R234). Each instruction is one
definition over its mnemonic's effect, run by `runTick`. -/

namespace Sys2Proof.Machine

/-- ShiftOp: the result routine and write-back of all four (R230). `kind` takes the operand and the old C and gives the result
and the new C. -/
def shiftOp (kind : Byte → Bool → Byte × Bool) (site : Site) (res : Addressing) (s : State) : Res Bool :=
  withValue site res s fun v =>
    let r := (kind v (s.flag .C)).1
    let s1 := (s.setFlag .C (kind v (s.flag .C)).2).setZN r
    if res.acc then .ok false { s1 with acc := r }
    else withEa site res s1 fun ea => (memWrite ea r s1).bind fun _ s => .ok false s

/-- `t <- 2*v; r <- t mod 256; c <- carryAdd(t)` (R231). -/
def aslKind (v : Byte) (_ : Bool) : Byte × Bool :=
  let t : Int := 2 * (v.toNat : Int)
  (byteOf t, carryAdd t)

/-- `r <- v >> 1; c <- carryShiftRight(v)` (R232). -/
def lsrKind (v : Byte) (_ : Bool) : Byte × Bool := (v >>> 1, carryShiftRight v)

/-- `t <- 2*v + C; r <- t mod 256; c <- carryAdd(t)` (R233). -/
def rolKind (v : Byte) (c : Bool) : Byte × Bool :=
  let t : Int := 2 * (v.toNat : Int) + bitInt c
  (byteOf t, carryAdd t)

/-- `r <- (v >> 1) + 128*C; c <- carryShiftRight(v)` (R234). -/
def rorKind (v : Byte) (c : Bool) : Byte × Bool :=
  (byteOf (((v >>> 1).toNat : Int) + 128 * bitInt c), carryShiftRight v)

/-- ASL (R231). -/
def effAsl (site : Site) (res : Addressing) (s : State) : Res Bool := shiftOp aslKind site res s

/-- LSR (R232). -/
def effLsr (site : Site) (res : Addressing) (s : State) : Res Bool := shiftOp lsrKind site res s

/-- ROL (R233). -/
def effRol (site : Site) (res : Addressing) (s : State) : Res Bool := shiftOp rolKind site res s

/-- ROR (R234). -/
def effRor (site : Site) (res : Addressing) (s : State) : Res Bool := shiftOp rorKind site res s

/-! ### The meanings of the opcode rows (30_encoding.md R115) -/

/-- 06: ASL ZeroPage (R231). -/
def execAslZp (b : Byte) (s : State) : Host.Outcome State Fault Refusal := runTick (.aslZp b) effAsl s

/-- 0A: ASL A (R231). -/
def execAslAcc (s : State) : Host.Outcome State Fault Refusal := runTick .aslAcc effAsl s

/-- 0E: ASL Absolute (R231). -/
def execAslAbs (a : Addr) (s : State) : Host.Outcome State Fault Refusal := runTick (.aslAbs a) effAsl s

/-- 16: ASL ZeroPageX (R231). -/
def execAslZpX (b : Byte) (s : State) : Host.Outcome State Fault Refusal := runTick (.aslZpX b) effAsl s

/-- 1E: ASL AbsoluteX (R231). -/
def execAslAbsX (a : Addr) (s : State) : Host.Outcome State Fault Refusal := runTick (.aslAbsX a) effAsl s

/-- 46: LSR ZeroPage (R232). -/
def execLsrZp (b : Byte) (s : State) : Host.Outcome State Fault Refusal := runTick (.lsrZp b) effLsr s

/-- 4A: LSR A (R232). -/
def execLsrAcc (s : State) : Host.Outcome State Fault Refusal := runTick .lsrAcc effLsr s

/-- 4E: LSR Absolute (R232). -/
def execLsrAbs (a : Addr) (s : State) : Host.Outcome State Fault Refusal := runTick (.lsrAbs a) effLsr s

/-- 56: LSR ZeroPageX (R232). -/
def execLsrZpX (b : Byte) (s : State) : Host.Outcome State Fault Refusal := runTick (.lsrZpX b) effLsr s

/-- 5E: LSR AbsoluteX (R232). -/
def execLsrAbsX (a : Addr) (s : State) : Host.Outcome State Fault Refusal := runTick (.lsrAbsX a) effLsr s

/-- 26: ROL ZeroPage (R233). -/
def execRolZp (b : Byte) (s : State) : Host.Outcome State Fault Refusal := runTick (.rolZp b) effRol s

/-- 2A: ROL A (R233). -/
def execRolAcc (s : State) : Host.Outcome State Fault Refusal := runTick .rolAcc effRol s

/-- 2E: ROL Absolute (R233). -/
def execRolAbs (a : Addr) (s : State) : Host.Outcome State Fault Refusal := runTick (.rolAbs a) effRol s

/-- 36: ROL ZeroPageX (R233). -/
def execRolZpX (b : Byte) (s : State) : Host.Outcome State Fault Refusal := runTick (.rolZpX b) effRol s

/-- 3E: ROL AbsoluteX (R233). -/
def execRolAbsX (a : Addr) (s : State) : Host.Outcome State Fault Refusal := runTick (.rolAbsX a) effRol s

/-- 66: ROR ZeroPage (R234). -/
def execRorZp (b : Byte) (s : State) : Host.Outcome State Fault Refusal := runTick (.rorZp b) effRor s

/-- 6A: ROR A (R234). -/
def execRorAcc (s : State) : Host.Outcome State Fault Refusal := runTick .rorAcc effRor s

/-- 6E: ROR Absolute (R234). -/
def execRorAbs (a : Addr) (s : State) : Host.Outcome State Fault Refusal := runTick (.rorAbs a) effRor s

/-- 76: ROR ZeroPageX (R234). -/
def execRorZpX (b : Byte) (s : State) : Host.Outcome State Fault Refusal := runTick (.rorZpX b) effRor s

/-- 7E: ROR AbsoluteX (R234). -/
def execRorAbsX (a : Addr) (s : State) : Host.Outcome State Fault Refusal := runTick (.rorAbsX a) effRor s

end Sys2Proof.Machine
end

