-- ==== Sys2Proof/Machine/Stack.lean ====
section
/-! DEFINITION. The meanings of the stack and control transfer (48_stack_control.md R282 to R290). Each instruction is one
definition over its mnemonic's effect, run by `runTick`. -/

namespace Sys2Proof.Machine

/-- PHA: `Push(ACC)` (R282). -/
def effPha (site : Site) (_ : Addressing) (s : State) : Res Bool :=
  (push site.pc0 s.acc s).bind fun _ s => .ok false s

/-- PHP: `Push(STATUS)`, the stored byte (R283). -/
def effPhp (site : Site) (_ : Addressing) (s : State) : Res Bool :=
  (push site.pc0 s.status s).bind fun _ s => .ok false s

/-- PLA: `ACC <- Pull(); setZN(ACC)` (R284). -/
def effPla (site : Site) (_ : Addressing) (s : State) : Res Bool :=
  (pull site.pc0 s).bind fun v s => .ok false (State.setZN v { s with acc := v })

/-- PLP: `STATUS <- Pull()`, all 8 bits (R285). -/
def effPlp (site : Site) (_ : Addressing) (s : State) : Res Bool :=
  (pull site.pc0 s).bind fun v s => .ok false { s with status := v }

/-- JMP: `PC <- res.ea` (R286). -/
def effJmp (site : Site) (res : Addressing) (s : State) : Res Bool :=
  withEa site res s fun ea => .ok false { s with pc := ea }

/-- JSR: push the address of the JSR's last byte, high byte first, then `PC <- res.ea` (R287). -/
def effJsr (site : Site) (res : Addressing) (s : State) : Res Bool :=
  withEa site res s fun ea =>
    (pushAddress site.pc0 (s.pc - 1) s).bind fun _ s => .ok false { s with pc := ea }

/-- RTS: `lo <- Pull(); hi <- Pull(); PC <- lo + 256*hi + 1` (R288). -/
def effRts (site : Site) (_ : Addressing) (s : State) : Res Bool :=
  (pullAddress site.pc0 s).bind fun target s => .ok false { s with pc := (target : Int) + 1 }

/-- BRK: enter the interrupt through 0xFFFE with the return address `(pc0 + 2) mod 0x10000`, setting B (R289). -/
def effBrk (site : Site) (_ : Addressing) (s : State) : Res Bool :=
  (enterInterrupt site.pc0 ((site.pc0 + 2) % 0x10000) true 0xFFFE s).bind fun _ s => .ok false s

/-- RTI: `STATUS <- Pull(); lo <- Pull(); hi <- Pull(); PC <- lo + 256*hi` (R290). -/
def effRti (site : Site) (_ : Addressing) (s : State) : Res Bool :=
  (returnFromInterrupt site.pc0 s).bind fun _ s => .ok false s

/-! ### The meanings of the opcode rows (30_encoding.md R115) -/

/-- 48: PHA (R282). -/
def execPha (s : State) : Host.Outcome State Fault Refusal := runTick .pha effPha s

/-- 08: PHP (R283). -/
def execPhp (s : State) : Host.Outcome State Fault Refusal := runTick .php effPhp s

/-- 68: PLA (R284). -/
def execPla (s : State) : Host.Outcome State Fault Refusal := runTick .pla effPla s

/-- 28: PLP (R285). -/
def execPlp (s : State) : Host.Outcome State Fault Refusal := runTick .plp effPlp s

/-- 4C: JMP Absolute (R286). -/
def execJmpAbs (a : Addr) (s : State) : Host.Outcome State Fault Refusal := runTick (.jmpAbs a) effJmp s

/-- 6C: JMP Indirect (R286). -/
def execJmpInd (a : Addr) (s : State) : Host.Outcome State Fault Refusal := runTick (.jmpInd a) effJmp s

/-- 20: JSR Absolute (R287). -/
def execJsr (a : Addr) (s : State) : Host.Outcome State Fault Refusal := runTick (.jsr a) effJsr s

/-- 60: RTS (R288). -/
def execRts (s : State) : Host.Outcome State Fault Refusal := runTick .rts effRts s

/-- 00: BRK (R289). -/
def execBrk (s : State) : Host.Outcome State Fault Refusal := runTick .brk effBrk s

/-- 40: RTI (R290). -/
def execRti (s : State) : Host.Outcome State Fault Refusal := runTick .rti effRti s

end Sys2Proof.Machine
end

