-- ==== Sys2Proof/Machine/Dispatch.lean ====
section
/-! DEFINITION. The dispatch: one arm per constructor of Instr, each one direct call of that instruction's meaning. -/

namespace Sys2Proof.Machine

def exec (i : Instr) (s : State) : Host.Outcome State Fault Refusal :=
  match i with
  -- 41_load_store.md
  | .ldaIndX b => Sys2Proof.Machine.execLdaIndX b s
  | .ldaZp b => Sys2Proof.Machine.execLdaZp b s
  | .ldaImm b => Sys2Proof.Machine.execLdaImm b s
  | .ldaAbs a => Sys2Proof.Machine.execLdaAbs a s
  | .ldaIndY b => Sys2Proof.Machine.execLdaIndY b s
  | .ldaZpX b => Sys2Proof.Machine.execLdaZpX b s
  | .ldaAbsY a => Sys2Proof.Machine.execLdaAbsY a s
  | .ldaAbsX a => Sys2Proof.Machine.execLdaAbsX a s
  | .ldxImm b => Sys2Proof.Machine.execLdxImm b s
  | .ldxZp b => Sys2Proof.Machine.execLdxZp b s
  | .ldxAbs a => Sys2Proof.Machine.execLdxAbs a s
  | .ldxZpY b => Sys2Proof.Machine.execLdxZpY b s
  | .ldxAbsY a => Sys2Proof.Machine.execLdxAbsY a s
  | .ldyImm b => Sys2Proof.Machine.execLdyImm b s
  | .ldyZp b => Sys2Proof.Machine.execLdyZp b s
  | .ldyAbs a => Sys2Proof.Machine.execLdyAbs a s
  | .ldyZpX b => Sys2Proof.Machine.execLdyZpX b s
  | .ldyAbsX a => Sys2Proof.Machine.execLdyAbsX a s
  | .staIndX b => Sys2Proof.Machine.execStaIndX b s
  | .staZp b => Sys2Proof.Machine.execStaZp b s
  | .staAbs a => Sys2Proof.Machine.execStaAbs a s
  | .staIndY b => Sys2Proof.Machine.execStaIndY b s
  | .staZpX b => Sys2Proof.Machine.execStaZpX b s
  | .staAbsY a => Sys2Proof.Machine.execStaAbsY a s
  | .staAbsX a => Sys2Proof.Machine.execStaAbsX a s
  | .stxZp b => Sys2Proof.Machine.execStxZp b s
  | .stxAbs a => Sys2Proof.Machine.execStxAbs a s
  | .stxZpY b => Sys2Proof.Machine.execStxZpY b s
  | .styZp b => Sys2Proof.Machine.execStyZp b s
  | .styAbs a => Sys2Proof.Machine.execStyAbs a s
  | .styZpX b => Sys2Proof.Machine.execStyZpX b s
  -- 42_arithmetic.md
  | .adcIndX b => Sys2Proof.Machine.execAdcIndX b s
  | .adcZp b => Sys2Proof.Machine.execAdcZp b s
  | .adcImm b => Sys2Proof.Machine.execAdcImm b s
  | .adcAbs a => Sys2Proof.Machine.execAdcAbs a s
  | .adcIndY b => Sys2Proof.Machine.execAdcIndY b s
  | .adcZpX b => Sys2Proof.Machine.execAdcZpX b s
  | .adcAbsY a => Sys2Proof.Machine.execAdcAbsY a s
  | .adcAbsX a => Sys2Proof.Machine.execAdcAbsX a s
  | .sbcIndX b => Sys2Proof.Machine.execSbcIndX b s
  | .sbcZp b => Sys2Proof.Machine.execSbcZp b s
  | .sbcImm b => Sys2Proof.Machine.execSbcImm b s
  | .sbcAbs a => Sys2Proof.Machine.execSbcAbs a s
  | .sbcIndY b => Sys2Proof.Machine.execSbcIndY b s
  | .sbcZpX b => Sys2Proof.Machine.execSbcZpX b s
  | .sbcAbsY a => Sys2Proof.Machine.execSbcAbsY a s
  | .sbcAbsX a => Sys2Proof.Machine.execSbcAbsX a s
  -- 43_logical.md
  | .andIndX b => Sys2Proof.Machine.execAndIndX b s
  | .andZp b => Sys2Proof.Machine.execAndZp b s
  | .andImm b => Sys2Proof.Machine.execAndImm b s
  | .andAbs a => Sys2Proof.Machine.execAndAbs a s
  | .andIndY b => Sys2Proof.Machine.execAndIndY b s
  | .andZpX b => Sys2Proof.Machine.execAndZpX b s
  | .andAbsY a => Sys2Proof.Machine.execAndAbsY a s
  | .andAbsX a => Sys2Proof.Machine.execAndAbsX a s
  | .oraIndX b => Sys2Proof.Machine.execOraIndX b s
  | .oraZp b => Sys2Proof.Machine.execOraZp b s
  | .oraImm b => Sys2Proof.Machine.execOraImm b s
  | .oraAbs a => Sys2Proof.Machine.execOraAbs a s
  | .oraIndY b => Sys2Proof.Machine.execOraIndY b s
  | .oraZpX b => Sys2Proof.Machine.execOraZpX b s
  | .oraAbsY a => Sys2Proof.Machine.execOraAbsY a s
  | .oraAbsX a => Sys2Proof.Machine.execOraAbsX a s
  | .eorIndX b => Sys2Proof.Machine.execEorIndX b s
  | .eorZp b => Sys2Proof.Machine.execEorZp b s
  | .eorImm b => Sys2Proof.Machine.execEorImm b s
  | .eorAbs a => Sys2Proof.Machine.execEorAbs a s
  | .eorIndY b => Sys2Proof.Machine.execEorIndY b s
  | .eorZpX b => Sys2Proof.Machine.execEorZpX b s
  | .eorAbsY a => Sys2Proof.Machine.execEorAbsY a s
  | .eorAbsX a => Sys2Proof.Machine.execEorAbsX a s
  | .bitZp b => Sys2Proof.Machine.execBitZp b s
  | .bitAbs a => Sys2Proof.Machine.execBitAbs a s
  -- 44_shift_rotate.md
  | .aslZp b => Sys2Proof.Machine.execAslZp b s
  | .aslAcc => Sys2Proof.Machine.execAslAcc s
  | .aslAbs a => Sys2Proof.Machine.execAslAbs a s
  | .aslZpX b => Sys2Proof.Machine.execAslZpX b s
  | .aslAbsX a => Sys2Proof.Machine.execAslAbsX a s
  | .lsrZp b => Sys2Proof.Machine.execLsrZp b s
  | .lsrAcc => Sys2Proof.Machine.execLsrAcc s
  | .lsrAbs a => Sys2Proof.Machine.execLsrAbs a s
  | .lsrZpX b => Sys2Proof.Machine.execLsrZpX b s
  | .lsrAbsX a => Sys2Proof.Machine.execLsrAbsX a s
  | .rolZp b => Sys2Proof.Machine.execRolZp b s
  | .rolAcc => Sys2Proof.Machine.execRolAcc s
  | .rolAbs a => Sys2Proof.Machine.execRolAbs a s
  | .rolZpX b => Sys2Proof.Machine.execRolZpX b s
  | .rolAbsX a => Sys2Proof.Machine.execRolAbsX a s
  | .rorZp b => Sys2Proof.Machine.execRorZp b s
  | .rorAcc => Sys2Proof.Machine.execRorAcc s
  | .rorAbs a => Sys2Proof.Machine.execRorAbs a s
  | .rorZpX b => Sys2Proof.Machine.execRorZpX b s
  | .rorAbsX a => Sys2Proof.Machine.execRorAbsX a s
  -- 45_compare.md
  | .cmpIndX b => Sys2Proof.Machine.execCmpIndX b s
  | .cmpZp b => Sys2Proof.Machine.execCmpZp b s
  | .cmpImm b => Sys2Proof.Machine.execCmpImm b s
  | .cmpAbs a => Sys2Proof.Machine.execCmpAbs a s
  | .cmpIndY b => Sys2Proof.Machine.execCmpIndY b s
  | .cmpZpX b => Sys2Proof.Machine.execCmpZpX b s
  | .cmpAbsY a => Sys2Proof.Machine.execCmpAbsY a s
  | .cmpAbsX a => Sys2Proof.Machine.execCmpAbsX a s
  | .cpxImm b => Sys2Proof.Machine.execCpxImm b s
  | .cpxZp b => Sys2Proof.Machine.execCpxZp b s
  | .cpxAbs a => Sys2Proof.Machine.execCpxAbs a s
  | .cpyImm b => Sys2Proof.Machine.execCpyImm b s
  | .cpyZp b => Sys2Proof.Machine.execCpyZp b s
  | .cpyAbs a => Sys2Proof.Machine.execCpyAbs a s
  -- 46_incdec.md
  | .incZp b => Sys2Proof.Machine.execIncZp b s
  | .incAbs a => Sys2Proof.Machine.execIncAbs a s
  | .incZpX b => Sys2Proof.Machine.execIncZpX b s
  | .incAbsX a => Sys2Proof.Machine.execIncAbsX a s
  | .decZp b => Sys2Proof.Machine.execDecZp b s
  | .decAbs a => Sys2Proof.Machine.execDecAbs a s
  | .decZpX b => Sys2Proof.Machine.execDecZpX b s
  | .decAbsX a => Sys2Proof.Machine.execDecAbsX a s
  | .inx => Sys2Proof.Machine.execInx s
  | .iny => Sys2Proof.Machine.execIny s
  | .dex => Sys2Proof.Machine.execDex s
  | .dey => Sys2Proof.Machine.execDey s
  -- 47_branch.md
  | .bcc b => Sys2Proof.Machine.execBcc b s
  | .bcs b => Sys2Proof.Machine.execBcs b s
  | .beq b => Sys2Proof.Machine.execBeq b s
  | .bne b => Sys2Proof.Machine.execBne b s
  | .bmi b => Sys2Proof.Machine.execBmi b s
  | .bpl b => Sys2Proof.Machine.execBpl b s
  | .bvc b => Sys2Proof.Machine.execBvc b s
  | .bvs b => Sys2Proof.Machine.execBvs b s
  -- 48_stack_control.md
  | .pha => Sys2Proof.Machine.execPha s
  | .php => Sys2Proof.Machine.execPhp s
  | .pla => Sys2Proof.Machine.execPla s
  | .plp => Sys2Proof.Machine.execPlp s
  | .jmpAbs a => Sys2Proof.Machine.execJmpAbs a s
  | .jmpInd a => Sys2Proof.Machine.execJmpInd a s
  | .jsr a => Sys2Proof.Machine.execJsr a s
  | .rts => Sys2Proof.Machine.execRts s
  | .brk => Sys2Proof.Machine.execBrk s
  | .rti => Sys2Proof.Machine.execRti s
  -- 49_flags_transfer_nop.md
  | .clc => Sys2Proof.Machine.execClc s
  | .sec => Sys2Proof.Machine.execSec s
  | .cli => Sys2Proof.Machine.execCli s
  | .sei => Sys2Proof.Machine.execSei s
  | .cld => Sys2Proof.Machine.execCld s
  | .sed => Sys2Proof.Machine.execSed s
  | .clv => Sys2Proof.Machine.execClv s
  | .tax => Sys2Proof.Machine.execTax s
  | .tay => Sys2Proof.Machine.execTay s
  | .txa => Sys2Proof.Machine.execTxa s
  | .tya => Sys2Proof.Machine.execTya s
  | .tsx => Sys2Proof.Machine.execTsx s
  | .txs => Sys2Proof.Machine.execTxs s
  | .nop => Sys2Proof.Machine.execNop s

end Sys2Proof.Machine
end

