-- ==== Sys2Proof/Machine/Driver.lean ====
section
/-! DEFINITION. The vblank timer, the NMI controller and the driver step (60_exceptions.md R330 to R335). -/

namespace Sys2Proof.Machine

/-- FinishNMI: clears in-flight only when STK matches the captured value (60_exceptions.md R332). -/
def finishNmi (s : State) : State :=
  if s.nmiInFlight = true ∧ s.stk = s.nmiCapturedSP then { s with nmiInFlight := false } else s

/-- StartNMI (60_exceptions.md R333). -/
def startNmi (s : State) : State := { s with nmiInFlight := true, nmiCapturedSP := s.stk }

/-- NMIEntry (60_exceptions.md R331): STATUS is pushed as it stands, I is set, B is not, whatever I was. -/
def nmiEntry (s : State) : Res Unit :=
  if 0 ≤ s.pc ∧ s.pc ≤ 0xFFFF then enterInterrupt s.pc s.pc false 0xFFFA s
  else raiseFault (.addressOutOfRange s.pc) s

/-- Flip the in-vblank bit, bit 7 of cell 0x2002 (20_memory.md R82). -/
def flipVblank (s : State) : State := s.setCell 0x2002 (s.cell 0x2002 ^^^ 0x80)

/-- DriverStep (60_exceptions.md R330) with threshold VBLANK_CYCLES and the tick's realized cycle count. -/
def driverStep (threshold cycles : Nat) (s : State) : Res Unit :=
  let s1 := finishNmi s
  if s1.vblankCount + cycles > threshold then
    let s2 := flipVblank { s1 with vblankCount := 0 }
    if s2.nmiInFlight then .ok () s2 else nmiEntry (startNmi s2)
  else .ok () { s1 with vblankCount := s1.vblankCount + cycles }

/-- What follows a tick that completed, from the state before it to the state after it: the driver step, where a driver is
attached (60_exceptions.md R330). The realized cycle count is what the tick added to CYC (10_state.md R39). -/
def afterTick (before after : State) : Res Unit :=
  match after.vblankCycles with
  | some threshold => driverStep threshold (after.cyc - before.cyc) after
  | none => .ok () after

end Sys2Proof.Machine
end

