-- ==== Sys2Proof/Machine/Fetch.lean ====
section
/-! DEFINITION. Fetching and decoding the instruction at PC over the CPU bus (40_tick_and_addressing.md R141, R144;
20_memory.md R103). -/

namespace Sys2Proof.Machine

/-- Read `n` bytes at consecutive bus addresses from `a`, in order. -/
def readBytes : Nat → Int → State → Res (List Byte)
  | 0, _, s => .ok [] s
  | n + 1, a, s => (memRead a s).bind fun v s => (readBytes n (a + 1) s).bind fun vs s => .ok (v :: vs) s

/-- `op <- MemRead(pc0, 1); e <- DICT[op]`, then the operand bytes at pc0+1 and pc0+2; a byte with no entry raises
UnknownOpcode before any operand byte is read (30_encoding.md R117). The decoder refuses no byte sequence of the entry's length,
so the last arm is not reached. -/
def fetch (s : State) : Res Instr :=
  (memRead s.pc s).bind fun op s1 =>
    match dict op with
    | none => raiseFault (.unknownOpcode op s.pc) s1
    | some f =>
      (readBytes (f.entry.mode.length - 1) (s.pc + 1) s1).bind fun bs s2 =>
        match decode (op :: bs) with
        | .ok (i, _) => .ok i s2
        | .error _ => raiseFault (.unknownOpcode op s.pc) s2

end Sys2Proof.Machine
end

