-- ==== Sys2Proof/Machine/Step.lean ====
section
/-! DEFINITION. One step: one tick (40_tick_and_addressing.md R141), then the driver step where a driver is attached
(60_exceptions.md R330). -/

namespace Sys2Proof.Machine

/-- No tick runs once a fault is recorded (10_state.md R47); else fetch the instruction at PC, run it, and run the driver step if
the tick completed. -/
def step (s : State) : Host.Outcome State Fault Refusal :=
  match s.fault with
  | some f => .fault f
  | none =>
    match fetch s with
    | .raise f _ => .fault f
    | .ok i s1 =>
      match exec i s1 with
      | .next t => (afterTick s1 t).outcome
      | .fault f => .fault f
      | .refused r => .refused r

/-- The state whose next step fetches and runs the instruction of a table word: its bytes placed in the cells at PC, and no fault
recorded, which would stop the fetch. -/
def State.withFetchWord (s : State) (nbits w : Nat) : State :=
  placeBytes s.pc (tableBytes nbits w) { s with fault := none }

end Sys2Proof.Machine
end

