-- ==== Sys2Proof/Machine/Load.lean ====
section
/-! DEFINITION. The load entry point: a cartridge image becomes a fresh machine (70_reset_and_hazards.md R366 to R369). -/

namespace Sys2Proof.Machine

/-- A failed load returns no state (70_reset_and_hazards.md R366, R367). -/
inductive LoadError where
  | invalidRomFormat
  | unsupportedMapper
  deriving DecidableEq, Repr

/-- Byte i of the image; read only where the image is long enough. -/
def imageByte (r : List Byte) (i : Nat) : Byte := r.getD i 0

/-- "NES" and 0x1A. -/
def romMagic : List Byte := [0x4E, 0x45, 0x53, 0x1A]

/-- What the header holds (70_reset_and_hazards.md R366). The mirroring and battery flags change nothing (92_eei_decisions.md
D36). -/
structure RomHeader where
  prgCount : Nat
  chrCount : Nat
  mirroring : Bool
  battery : Bool
  trainer : Bool
  mapper : Nat
  deriving DecidableEq, Repr

def romHeader (r : List Byte) : RomHeader :=
  let f6 := imageByte r 6
  let f7 := imageByte r 7
  { prgCount := (imageByte r 4).toNat
    chrCount := (imageByte r 5).toNat
    mirroring := f6.getLsbD 0
    battery := f6.getLsbD 1
    trainer := f6.getLsbD 2
    mapper := 16 * (f7.toNat / 16) + f6.toNat / 16 }

/-- Where the program banks begin: after the 16-byte header and a 512-byte trainer. -/
def bankOffset (h : RomHeader) : Nat := 16 + (if h.trainer then 512 else 0)

/-- `count` arrays of `size` bytes from offset `off` on. -/
def imageBanks (r : List Byte) (off size : Nat) : Nat → List (List Byte)
  | 0 => []
  | count + 1 => (r.drop off).take size :: imageBanks r (off + size) size count

/-- The entries of a block of bytes at consecutive addresses from `a`, in the canonical form. -/
def blockCells : Nat → List Byte → Memory
  | _, [] => []
  | a, v :: vs => if v = Config.initByte then blockCells (a + 1) vs else (a, v) :: blockCells (a + 1) vs

/-- Replace the bytes at `a .. a + length - 1`. -/
def Memory.writeBlock (m : Memory) (a : Nat) (vs : List Byte) : Memory :=
  m.filter (fun e => decide (e.1 < a)) ++ blockCells a vs ++ m.filter (fun e => decide (a + vs.length ≤ e.1))

/-- MapBanks (70_reset_and_hazards.md R368, R369): bank 0 at 0x8000, bank 0 or bank 1 at 0xC000, character bank 0 in the pattern
table, and the vblank bit forced set. The target cells are plain and canonical. -/
def mapBanks (s : State) : State :=
  let lower := s.prgBanks.getD 0 []
  let upper := if s.prgBanks.length = 1 then lower else s.prgBanks.getD 1 []
  let cpu := Memory.writeBlock (Memory.writeBlock s.cpu 0x8000 lower) 0xC000 upper
  let video := if s.chrBanks.length ≥ 1 then Memory.writeBlock s.video 0 (s.chrBanks.getD 0 []) else s.video
  let s1 := { s with cpu := cpu, video := video }
  s1.setCell 0x2002 (s1.cell 0x2002 ||| 0x80)

/-- Load (70_reset_and_hazards.md R366), with the parameters of the machine it constructs. -/
def load (p : Params) (r : List Byte) : Except LoadError State :=
  if r.length < 16 ∨ r.take 4 ≠ romMagic then .error .invalidRomFormat
  else
    let h := romHeader r
    if h.mapper ≠ 0 then .error .unsupportedMapper
    else if h.prgCount = 0 then .error .invalidRomFormat
    else
      let off := bankOffset h
      if r.length < off + 16384 * h.prgCount + 8192 * h.chrCount then .error .invalidRomFormat
      else
        .ok (mapBanks { State.construct p with
          prgBanks := imageBanks r off 16384 h.prgCount
          chrBanks := imageBanks r (off + 16384 * h.prgCount) 8192 h.chrCount })

end Sys2Proof.Machine
end

