-- ==== Sys2Proof/Machine/RunHelper.lean ====
section
/-! DEFINITION. The end of a run and the host's run helper (70_reset_and_hazards.md R375, R376). -/

namespace Sys2Proof.Machine

/-- The instruction at PC is JMP Absolute to its own address (70_reset_and_hazards.md R375). -/
def selfJumpNext (s : State) : Bool :=
  match fetch s with
  | .ok (.jmpAbs a) _ => decide ((a.toNat : Int) = s.pc)
  | _ => false

/-- A run ends at a tick boundary with no fault where a self-referential JMP is next (70_reset_and_hazards.md R376). The machine
itself goes on. -/
def atRunEnd (s : State) : Bool := s.fault.isNone && selfJumpNext s

/-- How the run helper returns. -/
inductive HelperResult where
  /-- The instruction just executed was a self-referential jump. -/
  | ended (s : State)
  /-- The tick bound was reached; such a run is not final. -/
  | bound (s : State)
  | faulted (f : Fault)
  | refused (r : Refusal)
  deriving DecidableEq, Repr

/-- The run helper, bounded by a tick count in place of the wall clock (70_reset_and_hazards.md R375; log entry 21). -/
def runHelper : Nat → State → HelperResult
  | 0, s => .bound s
  | n + 1, s =>
    match step s with
    | .next t => if selfJumpNext s then .ended t else runHelper n t
    | .fault f => .faulted f
    | .refused r => .refused r

end Sys2Proof.Machine
end

