-- ==== Sys2Proof/WellFormed.lean ====
section
/-! DEFINITION. The checks on plain data: the canonical form of a byte store and the ranges of a construction's
parameters. A term of Instr needs no check: its operands are a Byte or an Addr, and every value of those types is
an operand the encoding admits (30_encoding.md R112). -/

namespace Sys2Proof

/-- Addresses strictly rising and no entry equal to what an unlisted address reads as, so that equal stores
are equal data. -/
def Memory.wf : Memory → Bool
  | [] => true
  | (a, v) :: rest => decide (v ≠ Config.initByte) && rest.all (fun e => decide (a < e.1)) && Memory.wf rest

/-- Every listed address satisfies `p`. -/
def Memory.within (p : Nat → Bool) (m : Memory) : Bool := m.all (fun e => p e.1)

/-- A canonical cell of the CPU bus (20_memory.md R62). -/
def cpuCell (a : Nat) : Bool := decide (a ≤ 0xFFFF) && decide (Machine.canon a = a)

/-- A canonical cell of the video bus (20_memory.md R91). -/
def videoCell (a : Nat) : Bool := decide (a ≤ 0xFFFF) && decide (Machine.vcanon a = a)

/-- A cell of sprite memory (10_state.md R40). -/
def spriteCell (a : Nat) : Bool := decide (a ≤ 0xFF)

/-- RESET_PC is a bus address and each initial content is in canonical form on canonical cells
(00_scope.md R11). -/
def Params.wf (p : Params) : Bool :=
  decide (p.resetPc ≤ 0xFFFF) &&
  (p.cpuInit.wf && p.cpuInit.within cpuCell) &&
  (p.videoInit.wf && p.videoInit.within videoCell) &&
  (p.spriteInit.wf && p.spriteInit.within spriteCell)

end Sys2Proof
end

