-- ==== Sys2Proof/Safety.lean ====
section
/-! DEFINITION. What the claims say about states: the invariant of the machine, and runs that do not fault. -/

namespace Sys2Proof.Machine

/-- The invariant: both buses and sprite memory are in canonical form on their own cells (20_memory.md R61), the trace ring is within
its capacity (10_state.md R45), the video address latch is at most 0x100FF (20_memory.md R78, R79), and the banks have their
fixed sizes (10_state.md R46). -/
def State.Inv (s : State) : Prop :=
  s.cpu.wf = true ∧ s.cpu.within cpuCell = true ∧
  s.video.wf = true ∧ s.video.within videoCell = true ∧
  s.sprite.wf = true ∧ s.sprite.within spriteCell = true ∧
  s.trace.length ≤ 100 ∧
  (s.vaddrLatch ≤ 0x100FF ∧ (s.vaddrToggle = true → s.vaddrLatch ≤ 0x10000)) ∧
  (∀ b ∈ s.prgBanks, b.length = 16384) ∧ (∀ b ∈ s.chrBanks, b.length = 8192)

/-- The PC values a completed tick can leave (10_state.md R33). -/
def pcInRange (pc : Int) : Prop := -126 ≤ pc ∧ pc ≤ 0x1007F

/-- `n` steps from `s` complete, none of them a fault (60_exceptions.md R321). -/
def runsSafely : Nat → State → Prop
  | 0, _ => True
  | n + 1, s => ∃ t, step s = .next t ∧ runsSafely n t

end Sys2Proof.Machine
end

