-- ==== Sys2Proof/Certificates/Slice0/Obligations.lean ====
section
/-! DEFINITION. The statements for the provers. A statement that rests on the spec's own decisions (92_eei_decisions.md) or on this
model's log entries says so in its citation. -/

namespace Sys2Proof.Machine

/-- Z and N are those of `v`, every other flag is as before (10_state.md R38). -/
def ZNUpdated (v old new : Byte) : Prop :=
  getFlag .Z new = decide (v = 0) ∧ getFlag .N new = v.getLsbD 7 ∧
    ∀ f, f ≠ .Z → f ≠ .N → getFlag f new = getFlag f old

/-- C is `c`, Z and N are those of `v`, every other flag is as before. -/
def CZNUpdated (c : Bool) (v old new : Byte) : Prop :=
  getFlag .C new = c ∧ getFlag .Z new = decide (v = 0) ∧ getFlag .N new = v.getLsbD 7 ∧
    ∀ f, f ≠ .C → f ≠ .Z → f ≠ .N → getFlag f new = getFlag f old

/-- C and V are `c` and `o`, Z and N are those of `v`, every other flag is as before. -/
def CVZNUpdated (c o : Bool) (v old new : Byte) : Prop :=
  getFlag .C new = c ∧ getFlag .V new = o ∧ getFlag .Z new = decide (v = 0) ∧ getFlag .N new = v.getLsbD 7 ∧
    ∀ f, f ≠ .C → f ≠ .V → f ≠ .Z → f ≠ .N → getFlag f new = getFlag f old

/-- Flag `f` is `b`, every other flag is as before. -/
def FlagUpdated (f : Flag) (b : Bool) (old new : Byte) : Prop :=
  getFlag f new = b ∧ ∀ g, g ≠ f → getFlag g new = getFlag g old

/-- An instruction whose operand is read completes: with an immediate byte always, with an operand in memory wherever its effective
address is on the bus. `post` relates the operand byte, the state after the operand was read and the state before the tick is
accounted. -/
def CompletesRead (i : Instr) (s : State) (post : Byte → State → State → Prop) : Prop :=
  (∀ b, i.operand = .immediate b →
    ∃ t, post b (s.advance i.operand) t ∧ exec i s = .next (account i.entry s.pc false false t)) ∧
  (∀ ea crossed, effectiveAddress i.operand s = some (ea, crossed) → ea ≤ 0xFFFF →
    ∃ t, post (busRead ea (s.advance i.operand)).1 (busRead ea (s.advance i.operand)).2 t ∧
      exec i s = .next (account i.entry s.pc crossed false t))

/-- A store at `ea` is not turned away: the address is on the bus and, at the video-data port, so is the latched video address. -/
def Writable (ea : Nat) (s : State) : Prop := ea ≤ 0xFFFF ∧ (canon ea = 0x2007 → s.vaddrLatch ≤ 0xFFFF)

/-- An instruction that stores `v` at its effective address completes wherever the store is not turned away. -/
def CompletesStore (i : Instr) (s : State) (v : Byte) : Prop :=
  ∀ ea crossed, effectiveAddress i.operand s = some (ea, crossed) → Writable ea s →
    ∃ t, memWrite ea v (s.advance i.operand) = .ok () t ∧ exec i s = .next (account i.entry s.pc crossed false t)

/-- An instruction that reads a byte at its effective address and writes `result` of it back completes wherever the store is not turned
away. `flags` relates the byte read and the STATUS before and after. -/
def CompletesReadModifyWrite (i : Instr) (s : State) (result : Byte → Byte) (flags : Byte → Byte → Byte → Prop) : Prop :=
  ∀ ea crossed, effectiveAddress i.operand s = some (ea, crossed) → Writable ea s →
    ∃ status t, flags (busRead ea (s.advance i.operand)).1 s.status status ∧
      memWrite ea (result (busRead ea (s.advance i.operand)).1)
        { (busRead ea (s.advance i.operand)).2 with status := status } = .ok () t ∧
      exec i s = .next (account i.entry s.pc crossed false t)

/-- An instruction with no operand completes in every state. `post` relates the state with PC past the instruction and the state before
the tick is accounted. -/
def CompletesImplicit (i : Instr) (s : State) (post : State → State → Prop) : Prop :=
  ∃ t, post { s with pc := s.pc + 1 } t ∧ exec i s = .next (account i.entry s.pc false false t)

/-- A branch completes in every state: taken with one more cycle where the flag has the wanted value. -/
def CompletesBranch (i : Instr) (s : State) (f : Flag) (want : Bool) : Prop :=
  ∀ b, i.operand = .relative b →
    (s.flag f = want → exec i s = .next (account i.entry s.pc false true { s with pc := s.pc + 2 + sext8 b })) ∧
    (s.flag f ≠ want → exec i s = .next (account i.entry s.pc false false { s with pc := s.pc + 2 }))

end Sys2Proof.Machine

open Sys2Proof Sys2Proof.Machine

/-- For every instruction (all 151 constructors, every operand value) and every bytes that follow, decoding its encoded
words gives that instruction and leaves exactly the bytes that follow. (30_encoding.md section 1 (formats);
30_encoding.md section 2 (operand assembly); 92_eei_decisions.md D2) -/
def Obligations.DecodeOfEncodeIsTheInstruction : Prop :=
  ∀ (i : Instr) (rest : List Byte), decode (encode i ++ rest) = .ok (i, rest)

/-- Whenever bytes decode to an instruction with some bytes left over, they are the encoded words of that instruction
followed by those bytes: no bit of a word is ignored. (30_encoding.md section 1 (formats); 30_encoding.md section 3
(the opcode table)) -/
def Obligations.DecodedBytesAreTheEncoding : Prop :=
  ∀ (bs : List Byte) (i : Instr) (rest : List Byte), decode bs = .ok (i, rest) → bs = encode i ++ rest

/-- Decoding bytes whose first byte is op answers unknownOpcode op exactly where no instruction of the table has that
opcode, and 105 of the 256 byte values are such. (30_encoding.md section 4 (its R117 rests on D1);
92_eei_decisions.md D1) -/
def Obligations.UnlistedOpcodesAreUnknown : Prop :=
  (∀ (op : Byte) (bs : List Byte), decode (op :: bs) = .error (.unknownOpcode op) ↔ ∀ i : Instr, i.entry.opcode ≠ op) ∧
  ((List.range 256).filter fun n => (dict (BitVec.ofNat 8 n)).isNone).length = 105

/-- LDA #3 is A9 03, LDA $12F0,X is BD F0 12, STA ($20),Y is 91 20, JMP ($02FF) is 6C FF 02, BNE -15 is D0 F1, ASL A is
0A, INC $02 is E6 02, SBC $10 is E5 10, CPX #$FF is E0 FF, AND ($40,X) is 21 40, RTI is 40. (30_encoding.md section
3 (the opcode table); 30_encoding.md section 5 (assembler syntax)) -/
def Obligations.SpecWordsDecodeToTheirInstructions : Prop :=
  decode [0xA9, 0x03] = .ok (.ldaImm 0x03, []) ∧ decode [0xBD, 0xF0, 0x12] = .ok (.ldaAbsX 0x12F0, []) ∧
  decode [0x91, 0x20] = .ok (.staIndY 0x20, []) ∧ decode [0x6C, 0xFF, 0x02] = .ok (.jmpInd 0x02FF, []) ∧
  decode [0xD0, 0xF1] = .ok (.bne 0xF1, []) ∧ decode [0x0A] = .ok (.aslAcc, []) ∧
  decode [0xE6, 0x02] = .ok (.incZp 0x02, []) ∧ decode [0xE5, 0x10] = .ok (.sbcZp 0x10, []) ∧
  decode [0xE0, 0xFF] = .ok (.cpxImm 0xFF, []) ∧ decode [0x21, 0x40] = .ok (.andIndX 0x40, []) ∧
  decode [0x40] = .ok (.rti, [])

/-- With no fault recorded, if the bytes read over the bus from PC on are the words of instruction i, then step is exec
i at the state after those reads; when that completes and a driver is attached (vblankCycles = some threshold), the
driver step with that threshold and the cycles the tick added to CYC follows; with none attached nothing follows.
(40_tick_and_addressing.md section 1 (tick); 60_exceptions.md section 3 (driver step; D38); model log entries 3 and
17) -/
def Obligations.StepRunsDecodedInstruction : Prop :=
  ∀ (s s1 : State) (i : Instr), s.fault = none → readBytes (encode i).length s.pc s = .ok (encode i) s1 →
    step s = match exec i s1 with
      | .next t =>
        (match t.vblankCycles with
          | some threshold => (driverStep threshold (t.cyc - s.cyc) t).outcome
          | none => .next t)
      | .fault f => .fault f
      | .refused r => .refused r

/-- For bus addresses a .. a+n-1 all within 0..0xFFFF and none of them a controller port, reading the n bytes in order
gives the bytes stored at the canonical cells of those addresses and leaves the state unchanged: with
StepRunsDecodedInstruction, a step runs the instruction whose words are stored at PC. (20_memory.md section 5 (R73
and R80, R73 by D20); 20_memory.md section 7 (fetch coherence)) -/
def Obligations.FetchReadsTheStoredBytes : Prop :=
  ∀ (n a : Nat) (s : State), a + n ≤ 0x10000 → (∀ k, k < n → portAt (canon (a + k)) = none) →
    readBytes n a s = .ok ((List.range n).map fun k => s.peek (a + k)) s

/-- A recorded fault stops every step with that fault. With none recorded, a PC outside 0..0xFFFF stops with
AddressOutOfRange(PC), a byte at PC (not a controller port) that no table row has stops with UnknownOpcode(byte,
PC), and the opcode of an instruction whose last byte would lie past 0xFFFF (two bytes at 0xFFFF, three at 0xFFFE or
0xFFFF) stops with AddressOutOfRange(0x10000). (10_state.md section 5 (R47); 10_state.md section 3 (R33, D10);
30_encoding.md section 4 (R117, D1); 40_tick_and_addressing.md section 1 (R141, R144); 41_load_store.md (common
faults); 20_memory.md section 1 (R60, D10)) -/
def Obligations.StepStopsWithoutRunningAnInstruction : Prop :=
  (∀ (s : State) (f : Fault), s.fault = some f → step s = .fault f) ∧
  (∀ s : State, s.fault = none → (s.pc < 0 ∨ 0xFFFF < s.pc) → step s = .fault (.addressOutOfRange s.pc)) ∧
  (∀ (s : State) (n : Nat), s.fault = none → s.pc = n → n ≤ 0xFFFF → portAt (canon n) = none →
    (∀ i : Instr, i.entry.opcode ≠ s.peek n) → step s = .fault (.unknownOpcode (s.peek n) n)) ∧
  (∀ (s : State) (n : Nat) (i : Instr), s.fault = none → s.pc = n → n ≤ 0xFFFF → s.peek n = i.entry.opcode →
    0x10000 < n + (encode i).length → step s = .fault (.addressOutOfRange 0x10000))

/-- From every state in which the byte stores are canonical on their own cells, the trace holds at most 100 entries, the
video latch is within its bound and the banks have their sizes, a step that completes gives a state in which all of
this holds again. (20_memory.md sections 1, 2, 5 and 6; 10_state.md sections 5 and 7) -/
def Obligations.InvariantKeptByStep : Prop :=
  ∀ s t : State, s.Inv → step s = .next t → t.Inv

/-- For every well-formed choice of RESET_PC, INIT_BYTE and VBLANK_CYCLES the constructed machine satisfies the
invariant, and State.reset is the construction with the default parameters, which are well-formed. (10_state.md
section 7 (reset values); 00_scope.md section 5 (parameters); model log entries 1, 2 and 3) -/
def Obligations.InvariantHoldsAtReset : Prop :=
  (∀ p : Params, p.wf = true → (State.construct p).Inv) ∧ Params.default.wf = true ∧ State.reset = State.construct Params.default

/-- After every step that completes, from any state whatever, PC lies in -126..0x1007F. (10_state.md section 3 (R33,
derived there; D10); 47_branch.md (R260, D18)) -/
def Obligations.PcAfterStepInRange : Prop :=
  ∀ s t : State, step s = .next t → pcInRange t.pc

/-- A step that completes adds at least 2 and at most 7 to CYC: the driver step adds nothing, and no row with its
page-cross extra or its taken-branch cycle costs more. (10_state.md section 5 (R39); 30_encoding.md section 3 (cycle
columns, D3); 60_exceptions.md section 3 (NMI entry adds no cycles, D7)) -/
def Obligations.CyclesOfAStep : Prop :=
  ∀ s t : State, step s = .next t → s.cyc + 2 ≤ t.cyc ∧ t.cyc ≤ s.cyc + 7

/-- exec answers a refusal for no instruction in no state, and neither does step. (30_encoding.md section 3 (every row
has a rule); 60_exceptions.md section 1) -/
def Obligations.NothingIsRefused : Prop :=
  (∀ (i : Instr) (s : State) (r : Refusal), exec i s ≠ .refused r) ∧ (∀ (s : State) (r : Refusal), step s ≠ .refused r)

/-- exec faults only with AddressOutOfRange at an address outside 0..0xFFFF, with StackOverflow at the instruction
address for PHA, PHP, JSR or BRK, or with StackUnderflow at the instruction address for PLA, PLP, RTS or RTI;
MissingEffectiveAddress is unreachable. (60_exceptions.md section 1 (fault kinds); 40_tick_and_addressing.md section
3 (R160, derived there); model log entry 7) -/
def Obligations.FaultsAnInstructionCanRaise : Prop :=
  ∀ (i : Instr) (s : State) (f : Fault), exec i s = .fault f →
    (∃ a : Int, f = .addressOutOfRange a ∧ (a < 0 ∨ 0xFFFF < a)) ∨
    (f = .stackOverflow s.pc ∧ i.entry.mnemonic ∈ [Mnemonic.PHA, .PHP, .JSR, .BRK]) ∨
    (f = .stackUnderflow s.pc ∧ i.entry.mnemonic ∈ [Mnemonic.PLA, .PLP, .RTS, .RTI])

/-- When exec completes from what the resolver gave, CYC has grown by base cycles plus the page-cross extra where the
mode reported a cross plus one exactly where the instruction is a branch whose flag has the wanted value, and the
trace is the entry (opcode, mode, address) put in front of the old one and cut to its first 100.
(40_tick_and_addressing.md section 1 (R143); 40_tick_and_addressing.md (R162; the recorded address is decision D25);
47_branch.md (the flag and value of each branch from general knowledge, G15)) -/
def Obligations.TickAccountsCyclesAndTrace : Prop :=
  ∀ (i : Instr) (s t : State) (res : Addressing) (s1 : State), resolve i.operand i.entry.access s = .ok res s1 →
    exec i s = .next t →
    t.cyc = s.cyc + i.entry.base + (if res.crossed then i.entry.extra else 0) +
      (if (i.entry.mnemonic = .BCC ∧ s.flag .C = false) ∨ (i.entry.mnemonic = .BCS ∧ s.flag .C = true) ∨
          (i.entry.mnemonic = .BNE ∧ s.flag .Z = false) ∨ (i.entry.mnemonic = .BEQ ∧ s.flag .Z = true) ∨
          (i.entry.mnemonic = .BPL ∧ s.flag .N = false) ∨ (i.entry.mnemonic = .BMI ∧ s.flag .N = true) ∨
          (i.entry.mnemonic = .BVC ∧ s.flag .V = false) ∨ (i.entry.mnemonic = .BVS ∧ s.flag .V = true)
        then 1 else 0) ∧
    t.trace = ({ opcode := i.entry.opcode, mode := i.entry.mode, pc := s.pc } :: s.trace).take 100

/-- Whatever a mode resolves, it reports a page cross only for AbsoluteX, AbsoluteY and IndirectIndexed; for these the
effective address is the base plus the index, a cross is reported exactly where the low byte of the base plus the
index exceeds 0xFF, and that is exactly where the high byte (the quotient by 256) of the effective address differs
from that of the base. (40_tick_and_addressing.md section 3 (R154, R155, R158, R159; D10, D11, D12)) -/
def Obligations.PageCrossMeansHighByteChanged : Prop :=
  ∀ (o : Operand) (s : State) (ea : Nat) (crossed : Bool), effectiveAddress o s = some (ea, crossed) →
    (∀ a, o = .absoluteX a → ea = a.toNat + s.x.toNat ∧ crossed = decide (a.toNat % 256 + s.x.toNat > 0xFF) ∧
      crossed = decide (ea / 256 ≠ a.toNat / 256)) ∧
    (∀ a, o = .absoluteY a → ea = a.toNat + s.y.toNat ∧ crossed = decide (a.toNat % 256 + s.y.toNat > 0xFF) ∧
      crossed = decide (ea / 256 ≠ a.toNat / 256)) ∧
    (∀ b, o = .indirectIndexed b →
      let base := (s.peek b.toNat).toNat + 256 * (s.peek ((b.toNat + 1) % 256)).toNat
      ea = base + s.y.toNat ∧ crossed = decide ((s.peek b.toNat).toNat + s.y.toNat > 0xFF) ∧
        crossed = decide (ea / 256 ≠ base / 256)) ∧
    ((∀ a, o ≠ .absoluteX a) → (∀ a, o ≠ .absoluteY a) → (∀ b, o ≠ .indirectIndexed b) → crossed = false)

/-- For each mode with an effective address, from the state with PC past the instruction: zero-page modes wrap modulo
256; Absolute, AbsoluteX and AbsoluteY form the sum without wrap; IndexedIndirect and IndirectIndexed read the low
and then the high pointer byte over the bus, the second address wrapping in zero page; Indirect reads the low byte
at the pointer and the high byte at the pointer plus one on the same page; then the operand is read exactly where
the access variant reads. (40_tick_and_addressing.md section 3 (R149 to R158; D10, D11, D12, D13);
40_tick_and_addressing.md section 2 (R145); model log entry 18) -/
def Obligations.ResolverFollowsTheModeRules : Prop :=
  ∀ (access : Access) (s : State) (b : Byte) (a : Addr),
    let s2 := { s with pc := s.pc + 2 }
    let s3 := { s with pc := s.pc + 3 }
    resolve (.zeroPage b) access s = fetchAt access b.toNat false s2 ∧
    resolve (.zeroPageX b) access s = fetchAt access ((b.toNat + s.x.toNat) % 256) false s2 ∧
    resolve (.zeroPageY b) access s = fetchAt access ((b.toNat + s.y.toNat) % 256) false s2 ∧
    resolve (.absolute a) access s = fetchAt access a.toNat false s3 ∧
    resolve (.absoluteX a) access s = fetchAt access (a.toNat + s.x.toNat) (decide (a.toNat % 256 + s.x.toNat > 0xFF)) s3 ∧
    resolve (.absoluteY a) access s = fetchAt access (a.toNat + s.y.toNat) (decide (a.toNat % 256 + s.y.toNat > 0xFF)) s3 ∧
    resolve (.indexedIndirect b) access s =
      ((memRead (((b.toNat + s.x.toNat) % 256 : Nat) : Int) s2).bind fun lo u =>
        (memRead ((((b.toNat + s.x.toNat) % 256 + 1) % 256 : Nat) : Int) u).bind fun hi u =>
        fetchAt access (lo.toNat + 256 * hi.toNat) false u) ∧
    resolve (.indirectIndexed b) access s =
      ((memRead b.toNat s2).bind fun lo u =>
        (memRead (((b.toNat + 1) % 256 : Nat) : Int) u).bind fun hi u =>
        fetchAt access (lo.toNat + 256 * hi.toNat + s.y.toNat) (decide (lo.toNat + s.y.toNat > 0xFF)) u) ∧
    resolve (.indirect a) access s =
      ((memRead a.toNat s3).bind fun lo u =>
        (memRead (((a.toNat % 256 + 1) % 256 + 256 * (a.toNat / 256) : Nat) : Int) u).bind fun hi u =>
        .ok { value := none, ea := some (lo.toNat + 256 * hi.toNat), acc := false, crossed := false } u)

/-- For every form of LDA, LDX and LDY whose operand is an immediate byte or lies on the bus, exec completes: the
register holds the operand byte, Z and N are those of the byte, the other flags, every other register and all memory
are as after the operand read (PC past the instruction), and the tick is accounted with no taken cycle.
(41_load_store.md (R200, R201, R202; the flags from general knowledge, G12); 10_state.md section 4 (R38)) -/
def Obligations.LoadsPutTheOperandInTheRegister : Prop :=
  ∀ (i : Instr) (s : State),
    (i.entry.mnemonic = .LDA → CompletesRead i s fun v s1 t =>
      t = { s1 with acc := v, status := t.status } ∧ ZNUpdated v s1.status t.status) ∧
    (i.entry.mnemonic = .LDX → CompletesRead i s fun v s1 t =>
      t = { s1 with x := v, status := t.status } ∧ ZNUpdated v s1.status t.status) ∧
    (i.entry.mnemonic = .LDY → CompletesRead i s fun v s1 t =>
      t = { s1 with y := v, status := t.status } ∧ ZNUpdated v s1.status t.status)

/-- For every form of STA, STX and STY whose effective address is on the bus (and, at the video-data port, with the
latched video address on the video bus), exec completes and its state is that after the one bus write of ACC, X or Y
at the effective address from the state with PC past the instruction, with no read of that address and no flag
written, accounted with no taken cycle. (R203; R204; R205) -/
def Obligations.StoresWriteTheRegister : Prop :=
  ∀ (i : Instr) (s : State),
    (i.entry.mnemonic = .STA → CompletesStore i s s.acc) ∧
    (i.entry.mnemonic = .STX → CompletesStore i s s.x) ∧
    (i.entry.mnemonic = .STY → CompletesStore i s s.y)

/-- For every form of ADC whose operand is an immediate byte or lies on the bus, exec completes: ACC is (ACC + M + C)
mod 256, C is bit 8 of the sum (it exceeds 255), V is set exactly where ACC and M have the same bit 7 and the result
the opposite one, Z and N are those of the result, I, D, B and U and everything else are unchanged. That the sum is
binary with D = 1 too is the spec's decision D4 (DESIGN CHOICE, log entry 11). (42_arithmetic.md (R210, R211);
92_eei_decisions.md D4 (binary whatever D; DESIGN CHOICE, model log entry 11)) -/
def Obligations.AdcAddsWithCarry : Prop :=
  ∀ (i : Instr) (s : State), i.entry.mnemonic = .ADC → CompletesRead i s fun m s1 t =>
    let r := s.acc.toNat + m.toNat + (if s.flag .C then 1 else 0)
    t = { s1 with acc := t.acc, status := t.status } ∧ t.acc.toNat = r % 256 ∧
    CVZNUpdated (decide (255 < r))
      (decide (s.acc.getLsbD 7 = m.getLsbD 7 ∧ t.acc.getLsbD 7 ≠ s.acc.getLsbD 7)) t.acc s1.status t.status

/-- For every form of SBC whose operand is an immediate byte or lies on the bus, exec completes: with t = ACC - M - (1 -
C), ACC is t mod 256, C is 1 exactly where t >= 0, V is set exactly where ACC and the complement of M have the same
bit 7 and the result the opposite one, which is exactly where the signed difference leaves -128..127 (an inference
from R212, not its words), Z and N are those of the result, and everything else is unchanged. That the difference is
binary with D = 1 too is the spec's decision D4 (DESIGN CHOICE, log entry 11). (42_arithmetic.md (R212; V as the
overflow of the signed difference is an inference from it); 92_eei_decisions.md D4 (binary whatever D; DESIGN
CHOICE, model log entry 11)) -/
def Obligations.SbcSubtractsWithBorrow : Prop :=
  ∀ (i : Instr) (s : State), i.entry.mnemonic = .SBC → CompletesRead i s fun m s1 t =>
    let d : Int := (s.acc.toNat : Int) - m.toNat - (if s.flag .C then 0 else 1)
    let signed : Int := sext8 s.acc - sext8 m - (if s.flag .C then 0 else 1)
    t = { s1 with acc := t.acc, status := t.status } ∧ (t.acc.toNat : Int) = d % 256 ∧
    CVZNUpdated (decide (0 ≤ d))
      (decide (s.acc.getLsbD 7 = (~~~m).getLsbD 7 ∧ t.acc.getLsbD 7 ≠ s.acc.getLsbD 7)) t.acc s1.status t.status ∧
    (t.flag .V = true ↔ ¬ (-128 ≤ signed ∧ signed ≤ 127))

/-- For every form of AND, ORA and EOR whose operand is an immediate byte or lies on the bus, exec completes: ACC is the
bitwise and, or, exclusive or of ACC and the operand, Z and N are those of the result, C, V and the other flags and
everything else are unchanged. (R220; R221; R222) -/
def Obligations.LogicalOperationsCombineIntoAcc : Prop :=
  ∀ (i : Instr) (s : State),
    (i.entry.mnemonic = .AND → CompletesRead i s fun v s1 t =>
      t = { s1 with acc := s.acc &&& v, status := t.status } ∧ ZNUpdated (s.acc &&& v) s1.status t.status) ∧
    (i.entry.mnemonic = .ORA → CompletesRead i s fun v s1 t =>
      t = { s1 with acc := s.acc ||| v, status := t.status } ∧ ZNUpdated (s.acc ||| v) s1.status t.status) ∧
    (i.entry.mnemonic = .EOR → CompletesRead i s fun v s1 t =>
      t = { s1 with acc := s.acc ^^^ v, status := t.status } ∧ ZNUpdated (s.acc ^^^ v) s1.status t.status)

/-- For every form of BIT whose operand lies on the bus, exec completes: Z is set exactly where ACC and the operand
share no set bit, V is bit 6 and N is bit 7 of the operand, C, I, D, B and U, ACC and everything else are unchanged.
(R223) -/
def Obligations.BitTestsTheOperand : Prop :=
  ∀ (i : Instr) (s : State),
    (i.entry.mnemonic = .BIT → CompletesRead i s fun v s1 t =>
      t = { s1 with status := t.status } ∧ t.flag .Z = decide (s.acc &&& v = 0) ∧ t.flag .V = v.getLsbD 6 ∧
      t.flag .N = v.getLsbD 7 ∧ ∀ f, f ≠ .Z → f ≠ .V → f ≠ .N → t.flag f = s1.flag f)

/-- ASL A, LSR A, ROL A and ROR A complete in every state: ACC is shifted or rotated by one place (the old C entering
bit 0 for ROL and bit 7 for ROR), C is the bit shifted out, Z and N are those of the result, V, I, D, B, U and
everything else but PC are unchanged. (44_shift_rotate.md (R230 to R234; rotate ends from general knowledge, G13,
D16)) -/
def Obligations.AccumulatorShiftsAndRotates : Prop :=
  ∀ s : State,
    (let v := s.acc
     let r := v <<< 1
     CompletesImplicit .aslAcc s fun s1 t =>
       t = { s1 with acc := r, status := t.status } ∧ CZNUpdated (v.getLsbD 7) r s1.status t.status) ∧
    (let v := s.acc
     let r := v >>> 1
     CompletesImplicit .lsrAcc s fun s1 t =>
       t = { s1 with acc := r, status := t.status } ∧ CZNUpdated (v.getLsbD 0) r s1.status t.status) ∧
    (let v := s.acc
     let r := (v <<< 1) ||| (if s.flag .C then 1 else 0)
     CompletesImplicit .rolAcc s fun s1 t =>
       t = { s1 with acc := r, status := t.status } ∧ CZNUpdated (v.getLsbD 7) r s1.status t.status) ∧
    (let v := s.acc
     let r := (v >>> 1) ||| (if s.flag .C then 0x80 else 0)
     CompletesImplicit .rorAcc s fun s1 t =>
       t = { s1 with acc := r, status := t.status } ∧ CZNUpdated (v.getLsbD 0) r s1.status t.status)

/-- For every memory form of ASL, LSR, ROL and ROR whose effective address is on the bus (and, at the video-data port,
with the latched video address on the video bus), exec completes with one read and one write of the effective
address: the byte written is the byte read shifted or rotated by one place with the old C, C is the bit shifted out,
Z and N are those of the result, and every other flag is unchanged. (44_shift_rotate.md (R230 to R234; D13, D16,
G13); 40_tick_and_addressing.md section 2 (R145)) -/
def Obligations.MemoryShiftsAndRotates : Prop :=
  ∀ (i : Instr) (s : State),
    (i.entry.mnemonic = .ASL → CompletesReadModifyWrite i s (fun v => v <<< 1)
      fun v old new => CZNUpdated (v.getLsbD 7) (v <<< 1) old new) ∧
    (i.entry.mnemonic = .LSR → CompletesReadModifyWrite i s (fun v => v >>> 1)
      fun v old new => CZNUpdated (v.getLsbD 0) (v >>> 1) old new) ∧
    (i.entry.mnemonic = .ROL → CompletesReadModifyWrite i s (fun v => (v <<< 1) ||| (if s.flag .C then 1 else 0))
      fun v old new => CZNUpdated (v.getLsbD 7) ((v <<< 1) ||| (if s.flag .C then 1 else 0)) old new) ∧
    (i.entry.mnemonic = .ROR → CompletesReadModifyWrite i s (fun v => (v >>> 1) ||| (if s.flag .C then 0x80 else 0))
      fun v old new => CZNUpdated (v.getLsbD 0) ((v >>> 1) ||| (if s.flag .C then 0x80 else 0)) old new)

/-- For every form of CMP, CPX and CPY whose operand is an immediate byte or lies on the bus, exec completes: C is set
exactly where the register is at least the operand as unsigned bytes, Z exactly where they are equal, N is bit 7 of
the difference modulo 256, and no other flag, register or memory cell changes. That the compare is unsigned is the
spec's decision D17 against the source's word signed (conflict C5; DESIGN CHOICE, log entry 26). (45_compare.md
(R240 to R243); 92_eei_decisions.md D17 (unsigned; conflict C5 of 90_conflicts.md; DESIGN CHOICE, model log entry
26)) -/
def Obligations.ComparesSetCarryZeroNegative : Prop :=
  ∀ (i : Instr) (s : State),
    (i.entry.mnemonic = .CMP → CompletesRead i s fun v s1 t =>
      t = { s1 with status := t.status } ∧ CZNUpdated (decide (v.toNat ≤ s.acc.toNat)) (s.acc - v) s1.status t.status) ∧
    (i.entry.mnemonic = .CPX → CompletesRead i s fun v s1 t =>
      t = { s1 with status := t.status } ∧ CZNUpdated (decide (v.toNat ≤ s.x.toNat)) (s.x - v) s1.status t.status) ∧
    (i.entry.mnemonic = .CPY → CompletesRead i s fun v s1 t =>
      t = { s1 with status := t.status } ∧ CZNUpdated (decide (v.toNat ≤ s.y.toNat)) (s.y - v) s1.status t.status)

/-- For every form of INC and DEC whose effective address is on the bus (and, at the video-data port, with the latched
video address on the video bus), exec completes with one read and one write of the effective address: the byte
written is the byte read plus or minus one modulo 256, Z and N are those of the result, and every other flag is
unchanged. (46_incdec.md (R250 to R252; flag set from general knowledge, G14; D13)) -/
def Obligations.IncAndDecStepMemory : Prop :=
  ∀ (i : Instr) (s : State),
    (i.entry.mnemonic = .INC → CompletesReadModifyWrite i s (fun v => v + 1) fun v old new => ZNUpdated (v + 1) old new) ∧
    (i.entry.mnemonic = .DEC → CompletesReadModifyWrite i s (fun v => v - 1) fun v old new => ZNUpdated (v - 1) old new)

/-- INX, INY, DEX and DEY complete in every state: the register is one more or one less modulo 256, Z and N are those of
the result, C, V and the other flags and everything else but PC are unchanged. (46_incdec.md (R250, R253 to R256;
flag set from general knowledge, G14)) -/
def Obligations.RegisterStepsWrap : Prop :=
  ∀ s : State,
    (CompletesImplicit .inx s fun s1 t => t = { s1 with x := s.x + 1, status := t.status } ∧
      ZNUpdated (s.x + 1) s1.status t.status) ∧
    (CompletesImplicit .iny s fun s1 t => t = { s1 with y := s.y + 1, status := t.status } ∧
      ZNUpdated (s.y + 1) s1.status t.status) ∧
    (CompletesImplicit .dex s fun s1 t => t = { s1 with x := s.x - 1, status := t.status } ∧
      ZNUpdated (s.x - 1) s1.status t.status) ∧
    (CompletesImplicit .dey s fun s1 t => t = { s1 with y := s.y - 1, status := t.status } ∧
      ZNUpdated (s.y - 1) s1.status t.status)

/-- BCC, BCS, BEQ, BNE, BMI, BPL, BVC and BVS complete in every state: where the flag has the wanted value PC is the
address of the next instruction plus the signed offset, without wrap, at one more cycle; else PC is the address of
the next instruction; nothing else changes. (47_branch.md (R260 to R268; flag pairs from general knowledge, G15;
D10, D18)) -/
def Obligations.BranchesTestTheirFlag : Prop :=
  ∀ (i : Instr) (s : State),
    (i.entry.mnemonic = .BCC → CompletesBranch i s .C false) ∧
    (i.entry.mnemonic = .BCS → CompletesBranch i s .C true) ∧
    (i.entry.mnemonic = .BEQ → CompletesBranch i s .Z true) ∧
    (i.entry.mnemonic = .BNE → CompletesBranch i s .Z false) ∧
    (i.entry.mnemonic = .BMI → CompletesBranch i s .N true) ∧
    (i.entry.mnemonic = .BPL → CompletesBranch i s .N false) ∧
    (i.entry.mnemonic = .BVC → CompletesBranch i s .V false) ∧
    (i.entry.mnemonic = .BVS → CompletesBranch i s .V true)

/-- With STK not 0, PHA and PHP complete: the byte at 0x0100 + STK becomes ACC, or STATUS as it stands, STK goes down by
1, and nothing else but PC changes. With STK = 0 they fault with StackOverflow at the instruction address.
(48_stack_control.md sections 1 and 2 (R280, R282, R283; D5, D14, D15)) -/
def Obligations.PushesStoreOneByte : Prop :=
  ∀ s : State,
    (s.stk ≠ 0 →
      (CompletesImplicit .pha s fun s1 t => t = { s1.setCell (0x0100 + s.stk.toNat) s.acc with stk := s.stk - 1 }) ∧
      (CompletesImplicit .php s fun s1 t => t = { s1.setCell (0x0100 + s.stk.toNat) s.status with stk := s.stk - 1 })) ∧
    (s.stk = 0 → exec .pha s = .fault (.stackOverflow s.pc) ∧ exec .php s = .fault (.stackOverflow s.pc))

/-- With STK not 0xFF, PLA and PLP complete: STK goes up by 1 and the byte at 0x0100 plus the new STK goes to ACC with Z
and N of it, or to all eight bits of STATUS; nothing else but PC changes. With STK = 0xFF they fault with
StackUnderflow at the instruction address. (48_stack_control.md sections 1 and 2 (R281, R284, R285; D5, D14, D15,
G16)) -/
def Obligations.PullsLoadOneByte : Prop :=
  ∀ s : State,
    (s.stk ≠ 0xFF →
      (CompletesImplicit .pla s fun s1 t =>
        t = { s1 with acc := s.cell (0x0100 + (s.stk.toNat + 1)), stk := s.stk + 1, status := t.status } ∧
        ZNUpdated (s.cell (0x0100 + (s.stk.toNat + 1))) s.status t.status) ∧
      (CompletesImplicit .plp s fun s1 t =>
        t = { s1 with status := s.cell (0x0100 + (s.stk.toNat + 1)), stk := s.stk + 1 })) ∧
    (s.stk = 0xFF → exec .pla s = .fault (.stackUnderflow s.pc) ∧ exec .plp s = .fault (.stackUnderflow s.pc))

/-- JMP Absolute completes with PC at its operand and nothing else changed. JMP Indirect completes with PC at the
address whose low byte is read at the pointer and whose high byte is read at the next address of the same page, the
start of the page where the low byte of the pointer is 0xFF; only the two bus reads can change anything else.
(48_stack_control.md section 3 (R286; D13); 40_tick_and_addressing.md section 3 (R153, R156)) -/
def Obligations.JumpsLoadPc : Prop :=
  ∀ (a : Addr) (s : State),
    exec (.jmpAbs a) s = .next (account (Instr.jmpAbs a).entry s.pc false false { s with pc := a.toNat }) ∧
    (let lo := busRead a.toNat { s with pc := s.pc + 3 }
     let hi := busRead (if a.toNat % 256 = 0xFF then a.toNat - 0xFF else a.toNat + 1) lo.2
     exec (.jmpInd a) s = .next (account (Instr.jmpInd a).entry s.pc false false
       { hi.2 with pc := ((lo.1.toNat + 256 * hi.1.toNat : Nat) : Int) }))

/-- For JSR at an address PC with PC + 2 on the bus: with STK at least 2 it completes with the high byte of PC + 2 at
0x0100 + STK, its low byte one below, STK down by 2, PC at the operand and nothing else changed; with STK less than
2 it faults with StackOverflow at the instruction address. (48_stack_control.md section 3 (R287; D13, D14, D15);
model log entry 28) -/
def Obligations.JsrPushesTheReturnAddress : Prop :=
  ∀ (a : Addr) (s : State), 0 ≤ s.pc → s.pc + 2 ≤ 0xFFFF →
    (2 ≤ s.stk.toNat → exec (.jsr a) s = .next (account (Instr.jsr a).entry s.pc false false
      { (s.setCell (0x0100 + s.stk.toNat) (BitVec.ofInt 8 ((s.pc + 2) / 256))).setCell (0x0100 + (s.stk.toNat - 1))
          (BitVec.ofInt 8 (s.pc + 2)) with
        stk := s.stk - 2, pc := a.toNat })) ∧
    (s.stk.toNat < 2 → exec (.jsr a) s = .fault (.stackOverflow s.pc))

/-- With STK at most 0xFD, RTS completes: PC is one more than the address whose low byte is at 0x0100 + STK + 1 and
whose high byte is at 0x0100 + STK + 2, STK is up by 2 and nothing else changes; with STK above 0xFD it faults with
StackUnderflow at the instruction address. (48_stack_control.md section 3 (R288; G17, D14, D15)) -/
def Obligations.RtsReturnsPastThePulledAddress : Prop :=
  ∀ s : State,
    (s.stk.toNat ≤ 0xFD → exec .rts s = .next (account (Instr.entry .rts) s.pc false false
      { s with
        stk := s.stk + 2
        pc := (((s.cell (0x0100 + (s.stk.toNat + 1))).toNat + 256 * (s.cell (0x0100 + (s.stk.toNat + 2))).toNat : Nat) : Int) + 1 })) ∧
    (0xFD < s.stk.toNat → exec .rts s = .fault (.stackUnderflow s.pc))

/-- For BRK at a bus address PC with STK at least 3, exec completes: the high and low byte of (PC + 2) mod 0x10000 and
STATUS as it stands are at 0x0100 + STK and the two cells below, STK is down by 3, B and I are set, PC is the
little-endian address at 0xFFFE, and nothing else changes; with STK less than 3 it faults with StackOverflow at the
instruction address. (48_stack_control.md section 3 (R289; D5, D6); model log entry 12) -/
def Obligations.BrkEntersTheSoftwareInterrupt : Prop :=
  ∀ s : State, 0 ≤ s.pc → s.pc ≤ 0xFFFF →
    (3 ≤ s.stk.toNat → ∃ status,
      getFlag .B status = true ∧ getFlag .I status = true ∧
      (∀ f, f ≠ .B → f ≠ .I → getFlag f status = s.flag f) ∧
      exec .brk s = .next (account (Instr.entry .brk) s.pc false false
        { ((s.setCell (0x0100 + s.stk.toNat) (BitVec.ofInt 8 ((s.pc + 2) % 0x10000 / 256))).setCell
            (0x0100 + (s.stk.toNat - 1)) (BitVec.ofInt 8 ((s.pc + 2) % 0x10000))).setCell
            (0x0100 + (s.stk.toNat - 2)) s.status with
          stk := s.stk - 3
          status := status
          pc := (((s.peek 0xFFFE).toNat + 256 * (s.peek 0xFFFF).toNat : Nat) : Int) })) ∧
    (s.stk.toNat < 3 → exec .brk s = .fault (.stackOverflow s.pc))

/-- With STK at most 0xFC, RTI completes: all eight bits of STATUS are the byte at 0x0100 + STK + 1, PC is the
little-endian address in the two cells above, STK is up by 3 and nothing else changes; with STK above 0xFC it faults
with StackUnderflow at the instruction address. (48_stack_control.md section 3 (R290; D5, G17)) -/
def Obligations.RtiRestoresStatusAndPc : Prop :=
  ∀ s : State,
    (s.stk.toNat ≤ 0xFC → exec .rti s = .next (account (Instr.entry .rti) s.pc false false
      { s with
        status := s.cell (0x0100 + (s.stk.toNat + 1))
        stk := s.stk + 3
        pc := (((s.cell (0x0100 + (s.stk.toNat + 2))).toNat + 256 * (s.cell (0x0100 + (s.stk.toNat + 3))).toNat : Nat) : Int) })) ∧
    (0xFC < s.stk.toNat → exec .rti s = .fault (.stackUnderflow s.pc))

/-- CLC, SEC, CLI, SEI, CLD, SED and CLV complete in every state: the named flag is cleared or set, and every other flag
and everything else but PC are unchanged. (49_flags_transfer_nop.md section 1 (R300 to R306, from general knowledge,
G18)) -/
def Obligations.FlagInstructionsWriteOneFlag : Prop :=
  ∀ s : State,
    (CompletesImplicit .clc s fun s1 t => t = { s1 with status := t.status } ∧ FlagUpdated .C false s.status t.status) ∧
    (CompletesImplicit .sec s fun s1 t => t = { s1 with status := t.status } ∧ FlagUpdated .C true s.status t.status) ∧
    (CompletesImplicit .cli s fun s1 t => t = { s1 with status := t.status } ∧ FlagUpdated .I false s.status t.status) ∧
    (CompletesImplicit .sei s fun s1 t => t = { s1 with status := t.status } ∧ FlagUpdated .I true s.status t.status) ∧
    (CompletesImplicit .cld s fun s1 t => t = { s1 with status := t.status } ∧ FlagUpdated .D false s.status t.status) ∧
    (CompletesImplicit .sed s fun s1 t => t = { s1 with status := t.status } ∧ FlagUpdated .D true s.status t.status) ∧
    (CompletesImplicit .clv s fun s1 t => t = { s1 with status := t.status } ∧ FlagUpdated .V false s.status t.status)

/-- TAX, TAY, TXA, TYA, TSX, TXS and NOP complete in every state: the destination holds the source, Z and N are those of
the value for all but TXS, which writes no flag, NOP changes nothing, and everything else but PC is unchanged.
(49_flags_transfer_nop.md sections 2 and 3 (R307 to R313, from general knowledge, G18)) -/
def Obligations.TransfersCopyTheRegister : Prop :=
  ∀ s : State,
    (CompletesImplicit .tax s fun s1 t => t = { s1 with x := s.acc, status := t.status } ∧ ZNUpdated s.acc s.status t.status) ∧
    (CompletesImplicit .tay s fun s1 t => t = { s1 with y := s.acc, status := t.status } ∧ ZNUpdated s.acc s.status t.status) ∧
    (CompletesImplicit .txa s fun s1 t => t = { s1 with acc := s.x, status := t.status } ∧ ZNUpdated s.x s.status t.status) ∧
    (CompletesImplicit .tya s fun s1 t => t = { s1 with acc := s.y, status := t.status } ∧ ZNUpdated s.y s.status t.status) ∧
    (CompletesImplicit .tsx s fun s1 t => t = { s1 with x := s.stk, status := t.status } ∧ ZNUpdated s.stk s.status t.status) ∧
    (CompletesImplicit .txs s fun s1 t => t = { s1 with stk := s.x }) ∧
    (CompletesImplicit .nop s fun s1 t => t = s1)

/-- For every instruction with an effective address above 0xFFFF that it reads or writes, exec faults with
AddressOutOfRange of that address; and a store or read-modify-write at the video-data port or a mirror of it with
the latched video address above 0xFFFF faults with AddressOutOfRange of the latch. (40_tick_and_addressing.md
section 3 (R154, R155, R158; D10); 20_memory.md section 5 (R79; D37)) -/
def Obligations.OperandsPastTheBusFault : Prop :=
  ∀ (i : Instr) (s : State) (ea : Nat) (crossed : Bool), effectiveAddress i.operand s = some (ea, crossed) →
    (0xFFFF < ea → i.entry.mnemonic ≠ .JMP → i.entry.mnemonic ≠ .JSR → exec i s = .fault (.addressOutOfRange ea)) ∧
    (ea ≤ 0xFFFF → canon ea = 0x2007 → 0xFFFF < s.vaddrLatch →
      (i.entry.mnemonic ∈ [Mnemonic.STA, .STX, .STY] ∨ i.entry.access = .readModifyWrite) →
      exec i s = .fault (.addressOutOfRange s.vaddrLatch))

/-- In every completed exec: ACC differs only after LDA, ADC, SBC, AND, ORA, EOR, PLA, TXA, TYA or an accumulator-mode
shift; X only after LDX, INX, DEX, TAX or TSX; Y only after LDY, INY, DEY or TAY; STK only after TXS, PHA, PHP, PLA,
PLP, JSR, RTS, BRK or RTI. (10_state.md section 2 (R31, R32, derived there)) -/
def Obligations.WhoWritesTheRegisters : Prop :=
  ∀ (i : Instr) (s t : State), exec i s = .next t →
    (t.acc ≠ s.acc → i.operand = .accumulator ∨
      i.entry.mnemonic ∈ [Mnemonic.LDA, .ADC, .SBC, .AND, .ORA, .EOR, .PLA, .TXA, .TYA]) ∧
    (t.x ≠ s.x → i.entry.mnemonic ∈ [Mnemonic.LDX, .INX, .DEX, .TAX, .TSX]) ∧
    (t.y ≠ s.y → i.entry.mnemonic ∈ [Mnemonic.LDY, .INY, .DEY, .TAY]) ∧
    (t.stk ≠ s.stk → i.entry.mnemonic ∈ [Mnemonic.TXS, .PHA, .PHP, .PLA, .PLP, .JSR, .RTS, .BRK, .RTI])

/-- In every completed exec each flag differs only after an instruction of its writer list: C, Z and N, I, D, B, U and V
as the writer table gives them; the stores, TXS, PHA, PHP, JMP, JSR, RTS, NOP and the branches are in none.
(10_state.md section 4 (R36, derived there)) -/
def Obligations.WhoWritesTheFlags : Prop :=
  ∀ (i : Instr) (s t : State), exec i s = .next t →
    (t.flag .C ≠ s.flag .C → i.entry.mnemonic ∈
      [Mnemonic.ADC, .SBC, .ASL, .LSR, .ROL, .ROR, .CMP, .CPX, .CPY, .CLC, .SEC, .PLP, .RTI]) ∧
    (t.flag .Z ≠ s.flag .Z ∨ t.flag .N ≠ s.flag .N → i.entry.mnemonic ∈
      [Mnemonic.ADC, .SBC, .AND, .ORA, .EOR, .BIT, .ASL, .LSR, .ROL, .ROR, .CMP, .CPX, .CPY, .INC, .DEC, .INX, .INY, .DEX, .DEY,
        .LDA, .LDX, .LDY, .TAX, .TAY, .TSX, .TXA, .TYA, .PLA, .PLP, .RTI]) ∧
    (t.flag .I ≠ s.flag .I → i.entry.mnemonic ∈ [Mnemonic.SEI, .CLI, .BRK, .PLP, .RTI]) ∧
    (t.flag .D ≠ s.flag .D → i.entry.mnemonic ∈ [Mnemonic.SED, .CLD, .PLP, .RTI]) ∧
    (t.flag .B ≠ s.flag .B → i.entry.mnemonic ∈ [Mnemonic.BRK, .PLP, .RTI]) ∧
    (t.flag .U ≠ s.flag .U → i.entry.mnemonic ∈ [Mnemonic.PLP, .RTI]) ∧
    (t.flag .V ≠ s.flag .V → i.entry.mnemonic ∈ [Mnemonic.ADC, .SBC, .BIT, .CLV, .PLP, .RTI])

/-- When STA, STX, STY, INC, DEC or a memory form of ASL, LSR, ROL or ROR completes with effective address ea: every
CPU-bus address whose cell is not that of ea (and, for the sprite-data port, not the sprite-address port) reads the
stored byte as before; sprite memory is unchanged unless ea is the sprite-data port, and then only at the index in
the sprite-address port; the video bus is unchanged unless ea is the video-data port, and then only at the cell of
the latched address; latch and toggle change only for the video-address and video-data ports; ACC, X, Y, STK are
unchanged; a controller port changes only where ea is one. (20_memory.md section 5 (R74, R75; D19);
41_load_store.md; 44_shift_rotate.md; 46_incdec.md) -/
def Obligations.StoringFormsKeepEveryOtherByte : Prop :=
  ∀ (i : Instr) (s t : State) (ea : Nat) (crossed : Bool), exec i s = .next t →
    effectiveAddress i.operand s = some (ea, crossed) →
    (i.entry.mnemonic ∈ [Mnemonic.STA, .STX, .STY] ∨ i.entry.access = .readModifyWrite) →
    (∀ a, canon a ≠ canon ea → (canon ea = 0x2004 → canon a ≠ 0x2003) → t.peek a = s.peek a) ∧
    (∀ k, (canon ea = 0x2004 → k ≠ (s.cell 0x2003).toNat) → Memory.read t.sprite k = Memory.read s.sprite k) ∧
    (∀ a, (canon ea = 0x2007 → vcanon a ≠ vcanon s.vaddrLatch) → t.vpeek a = s.vpeek a) ∧
    (canon ea ≠ 0x2006 → canon ea ≠ 0x2007 → t.vaddrLatch = s.vaddrLatch) ∧
    (canon ea ≠ 0x2006 → t.vaddrToggle = s.vaddrToggle) ∧
    t.acc = s.acc ∧ t.x = s.x ∧ t.y = s.y ∧ t.stk = s.stk ∧
    (∀ p, portAt (canon ea) ≠ some p → t.pad p = s.pad p)

/-- When any instruction other than STA, STX, STY, a read-modify-write form, PHA, PHP, JSR or BRK completes, every cell
of the CPU bus, of the video bus and of sprite memory and the video latch and toggle are as before; and when PHA,
PHP, JSR or BRK completes, every CPU-bus address outside the stack cells it pushed to (0x0100 + STK and the one or
two below) reads the stored byte as before, and the video bus, sprite memory, latch and toggle are as before.
(20_memory.md section 4 (R72) and section 5 (R73, R74); 48_stack_control.md section 1 (R280; D14)) -/
def Obligations.OtherFormsKeepAllMemory : Prop :=
  ∀ (i : Instr) (s t : State), exec i s = .next t →
    i.entry.mnemonic ∉ [Mnemonic.STA, .STX, .STY] → i.entry.access ≠ .readModifyWrite →
    (t.video = s.video ∧ t.sprite = s.sprite ∧ t.vaddrLatch = s.vaddrLatch ∧ t.vaddrToggle = s.vaddrToggle) ∧
    (i.entry.mnemonic ∉ [Mnemonic.PHA, .PHP, .JSR, .BRK] → t.cpu = s.cpu) ∧
    (i.entry.mnemonic ∈ [Mnemonic.PHA, .PHP, .JSR, .BRK] →
      ∀ a, (∀ k, k < (if i.entry.mnemonic = .BRK then 3 else if i.entry.mnemonic = .JSR then 2 else 1) →
        canon a ≠ 0x0100 + (s.stk.toNat - k)) → t.peek a = s.peek a)

/-- In every completed exec the NMI in-flight flag, the captured stack pointer, the vblank count, the cartridge banks,
the recorded fault and the driver parameter are as before; and every step keeps the banks and the driver parameter
and leaves no fault recorded. Controller port p (its button index and last written bit) is as before unless the
address the instruction reads or writes, other than the target of JMP or JSR, is at p, or one of the two pointer
bytes of JMP Indirect is; and no button is drawn unless the address it reads, or such a pointer byte, is at some
port. (10_state.md section 5 (R43, R44, R46, R47); 60_exceptions.md section 3 (R330 to R333); 60_exceptions.md
section 5 (R340 to R342; D21, model log entries 5 and 23); 20_memory.md section 5 (R73, R74; D19, D20); 20_memory.md
section 4 (R72; no other access, D13)) -/
def Obligations.InstructionsKeepTheDriversState : Prop :=
  (∀ (i : Instr) (s t : State), exec i s = .next t →
    t.nmiInFlight = s.nmiInFlight ∧ t.nmiCapturedSP = s.nmiCapturedSP ∧ t.vblankCount = s.vblankCount ∧
    t.prgBanks = s.prgBanks ∧ t.chrBanks = s.chrBanks ∧ t.fault = s.fault ∧ t.vblankCycles = s.vblankCycles) ∧
  (∀ (i : Instr) (s t : State) (p : Port), exec i s = .next t →
    (∀ ea crossed, effectiveAddress i.operand s = some (ea, crossed) →
      i.entry.mnemonic = .JMP ∨ i.entry.mnemonic = .JSR ∨ portAt (canon ea) ≠ some p) →
    (∀ a, i.operand = .indirect a → portAt (canon a.toNat) ≠ some p ∧
      portAt (canon (addressOf (lowByte a + 1) (highByte a))) ≠ some p) →
    t.pad p = s.pad p) ∧
  (∀ (i : Instr) (s t : State), exec i s = .next t →
    (∀ ea crossed, effectiveAddress i.operand s = some (ea, crossed) →
      i.entry.access = .addressOnly ∨ portAt (canon ea) = none) →
    (∀ a, i.operand = .indirect a → portAt (canon a.toNat) = none ∧
      portAt (canon (addressOf (lowByte a + 1) (highByte a))) = none) →
    t.buttonDraws = s.buttonDraws) ∧
  (∀ s t : State, step s = .next t →
    t.prgBanks = s.prgBanks ∧ t.chrBanks = s.chrBanks ∧ t.vblankCycles = s.vblankCycles ∧ t.fault = none)

/-- For every byte, every state with canonical memory and STK not 0, a push completes and the pull after it completes,
returns the byte pushed and leaves STK as it was before the push. (48_stack_control.md section 1 (R280, R281,
derived there; D14, D15)) -/
def Obligations.PullUndoesPush : Prop :=
  ∀ (pc0 : Int) (v : Byte) (s : State), s.cpu.wf = true → s.stk ≠ 0 →
    ∃ t u, push pc0 v s = .ok () t ∧ pull pc0 t = .ok v u ∧ u.stk = s.stk

/-- From every state with canonical memory and a PC with the whole instruction on the bus: if JSR completes, RTS at the
state it leaves (wherever PC then is) completes with PC three past the JSR and STK as before the JSR; if BRK
completes, RTI at the state it leaves completes with PC at (PC + 2) mod 0x10000, STATUS and STK as before the BRK.
(48_stack_control.md section 3 (R287 to R290; D5, D6, G17)) -/
def Obligations.ReturnsUndoTheirCalls : Prop :=
  ∀ (a : Addr) (s t : State), s.cpu.wf = true → 0 ≤ s.pc →
    (s.pc + 2 ≤ 0xFFFF → exec (.jsr a) s = .next t → ∃ u, exec .rts t = .next u ∧ u.pc = s.pc + 3 ∧ u.stk = s.stk) ∧
    (s.pc ≤ 0xFFFF → exec .brk s = .next t →
      ∃ u, exec .rti t = .next u ∧ u.pc = (s.pc + 2) % 0x10000 ∧ u.status = s.status ∧ u.stk = s.stk)

/-- CPU bus: for addresses a and b with the same canonical cell, in every state with canonical memory, a write of v at a
that is not turned away completes with v as the stored byte at b, and a read of b then returns v and changes nothing
unless b is a controller port; every write at an address of the bus with a different cell leaves the stored byte at
b as it was, but for the sprite index moved by the sprite-data port. Video bus: a write of v at a completes, changes
video cells only, a read of any alias b then returns v and a read of any other address what it held, and reads
change nothing; an access outside 0..0xFFFF faults with AddressOutOfRange. (20_memory.md section 1 (R60);
20_memory.md section 2 (R66); 20_memory.md section 5 (R74, R75, R77; port choice D19, model log entry 13);
20_memory.md section 6 (R90, R91, R96; D22, model log entry 14); 92_eei_decisions.md D31 (writable cartridge window;
DESIGN CHOICE, model log entry 24); 92_eei_decisions.md D20 (plain reads of the video ports; model log entry 13)) -/
def Obligations.MirrorsShareStorage : Prop :=
  (∀ (a b : Nat) (v : Byte) (s : State), s.cpu.wf = true → a ≤ 0xFFFF → b ≤ 0xFFFF →
    (canon a = canon b → Writable a s →
      ∃ t, memWrite a v s = .ok () t ∧ t.peek b = v ∧ (portAt (canon b) = none → memRead b t = .ok v t)) ∧
    (∀ t, canon b ≠ canon a → (canon a = 0x2004 → canon b ≠ 0x2003) → memWrite a v s = .ok () t → t.peek b = s.peek b)) ∧
  (∀ (a b : Nat) (v : Byte) (s : State), s.video.wf = true → a ≤ 0xFFFF → b ≤ 0xFFFF →
    ∃ t, vmemWrite a v s = .ok () t ∧ t = { s with video := t.video } ∧
      (vcanon a = vcanon b → vmemRead b t = .ok v t) ∧
      (vcanon a ≠ vcanon b → vmemRead b t = .ok (s.vpeek b) t)) ∧
  (∀ (a : Int) (v : Byte) (s : State), (a < 0 ∨ 0xFFFF < a) →
    (vmemRead a s).outcome = .fault (.addressOutOfRange a) ∧ (vmemWrite a v s).outcome = .fault (.addressOutOfRange a))

/-- For every address of the CPU bus: the alias group of RAM cell r is r, r+0x0800, r+0x1000 and r+0x1800; the alias
group of video port 0x2000+k is 0x2000+k+8j for j in 0..1023; and every address from 0x4000 on is its own cell, in
the group of no other address. (R62; R63; R64) -/
def Obligations.CpuBusAliasGroups : Prop :=
  ∀ a : Nat, a ≤ 0xFFFF →
    (∀ r, r ≤ 0x07FF → (canon a = r ↔ a = r ∨ a = r + 0x0800 ∨ a = r + 0x1000 ∨ a = r + 0x1800)) ∧
    (∀ k, k ≤ 7 → (canon a = 0x2000 + k ↔ ∃ j, j ≤ 1023 ∧ a = 0x2000 + k + 8 * j)) ∧
    (∀ b, 0x4000 ≤ b → (canon a = b ↔ a = b))

/-- For every address of the video bus: 0x3000..0x3EFF shares the cell 0x1000 below; palette byte k (not a background
entry of the second half) has the aliases 0x3F00+k+32j, and for k = 0, 4, 8, 12 also 0x3F10+k+32j, with j in 0..7;
every other address below 0x3000 or above 0x3FFF is its own cell, shared by no address but its nametable mirror.
(20_memory.md section 6 (R91 to R95; addresses from general knowledge, G10, D22)) -/
def Obligations.VideoBusAliasGroups : Prop :=
  ∀ a : Nat, a ≤ 0xFFFF →
    (0x3000 ≤ a → a ≤ 0x3EFF → vcanon a = a - 0x1000) ∧
    (∀ k, k < 32 → k ≠ 16 → k ≠ 20 → k ≠ 24 → k ≠ 28 →
      (vcanon a = 0x3F00 + k ↔ (∃ j, j ≤ 7 ∧ a = 0x3F00 + k + 32 * j) ∨
        (k ∈ [0, 4, 8, 12] ∧ ∃ j, j ≤ 7 ∧ a = 0x3F10 + k + 32 * j))) ∧
    (∀ b, b < 0x3000 ∨ 0x3FFF < b → b ≤ 0xFFFF → (vcanon a = b ↔ a = b ∨ (0x2000 ≤ b ∧ b ≤ 0x2EFF ∧ a = b + 0x1000)))

/-- A read at an address outside 0..0xFFFF faults with AddressOutOfRange. At any other address the read completes with
the byte and the state that busRead gives: where the cell is not a controller port it returns the stored byte and
changes nothing; at controller port p it returns 0x01 or 0x00 as the host input gives button index of p for this
read, moves the index of p on by one modulo 8, and changes nothing else but the count of draws. (20_memory.md
section 5 (R73, R80, R81; D20); 60_exceptions.md section 5 (R340, R342; D21); model log entry 5) -/
def Obligations.BusReadsByCell : Prop :=
  (∀ (a : Int) (s : State), (a < 0 ∨ 0xFFFF < a) → (memRead a s).outcome = .fault (.addressOutOfRange a)) ∧
  (∀ (a : Nat) (s : State), a ≤ 0xFFFF → memRead a s = .ok (busRead a s).1 (busRead a s).2) ∧
  (∀ (a : Nat) (s : State), a ≤ 0xFFFF → portAt (canon a) = none → memRead a s = .ok (s.peek a) s) ∧
  (∀ (a : Nat) (s : State) (p : Port), a ≤ 0xFFFF → portAt (canon a) = some p →
    ∃ t, memRead a s = .ok (if Config.buttons p (s.pad p).index s.buttonDraws then 0x01 else 0x00) t ∧
      (t.pad p).index.val = ((s.pad p).index.val + 1) % 8 ∧ (t.pad p).lastWrite = (s.pad p).lastWrite ∧
      (∀ q, q ≠ p → t.pad q = s.pad q) ∧ t.buttonDraws = s.buttonDraws + 1 ∧
      t = { s with padOne := t.padOne, padTwo := t.padTwo, buttonDraws := t.buttonDraws })

/-- A write of v at any alias of 0x2004 stores v in sprite memory at the index in cell 0x2003, moves that index on
modulo 256 and stores v in 0x2004; at any alias of 0x2006 it gives the latch its high byte (toggle 0) or its low
byte (toggle 1) and flips the toggle; at any alias of 0x2007 with the latch on the video bus it stores v at the
latched video address and moves the latch on by one; each also stores v in the port cell and changes nothing else.
(20_memory.md section 5 (R75 to R79; port assignment from general knowledge, G8, D19)) -/
def Obligations.VideoPortWrites : Prop :=
  ∀ (a : Nat) (v : Byte) (s : State), a ≤ 0xFFFF →
    (canon a = 0x2004 → memWrite a v s = .ok ()
      { s with
        sprite := Memory.write s.sprite (s.cell 0x2003).toNat v
        cpu := Memory.write (Memory.write s.cpu 0x2003 (s.cell 0x2003 + 1)) 0x2004 v }) ∧
    (canon a = 0x2006 → s.vaddrToggle = false → memWrite a v s = .ok ()
      { s with
        vaddrLatch := v.toNat * 256 + s.vaddrLatch % 256
        vaddrToggle := true
        cpu := Memory.write s.cpu 0x2006 v }) ∧
    (canon a = 0x2006 → s.vaddrToggle = true → memWrite a v s = .ok ()
      { s with
        vaddrLatch := s.vaddrLatch / 256 * 256 + v.toNat
        vaddrToggle := false
        cpu := Memory.write s.cpu 0x2006 v }) ∧
    (canon a = 0x2007 → s.vaddrLatch ≤ 0xFFFF → memWrite a v s = .ok ()
      { s with
        video := Memory.write s.video (vcanon s.vaddrLatch) v
        vaddrLatch := s.vaddrLatch + 1
        cpu := Memory.write s.cpu 0x2007 v })

/-- A write at a controller port p stores its byte, keeps its bit 0 as the last write of p, and sets the index of p to 0
exactly where the last write of p was 1 and this bit is 0, leaving it otherwise; the other port and everything else
are unchanged. (60_exceptions.md section 5 (R341; D21); 20_memory.md section 5 (R75, R81)) -/
def Obligations.StrobeResetsTheControllerIndex : Prop :=
  ∀ (a : Nat) (v : Byte) (s : State) (p : Port), a ≤ 0xFFFF → portAt (canon a) = some p →
    ∃ t, memWrite a v s = .ok () t ∧ (t.pad p).lastWrite = some (v.getLsbD 0) ∧
      (t.pad p).index = (if (s.pad p).lastWrite = some true ∧ v.getLsbD 0 = false then 0 else (s.pad p).index) ∧
      (∀ q, q ≠ p → t.pad q = s.pad q) ∧
      t = { s with padOne := t.padOne, padTwo := t.padTwo, cpu := Memory.write s.cpu (canon a) v }

/-- A write keeps a byte store in canonical form, reads back what was written and leaves every other address alone; and
two byte stores in canonical form that read the same at every address are the same list. (20_memory.md section 1
(R61); model log entry 2) -/
def Obligations.CanonicalMemoriesAreEqualWhenTheyReadAlike : Prop :=
  (∀ (m : Memory) (a b : Nat) (v : Byte), m.wf = true →
    (Memory.write m a v).wf = true ∧ Memory.read (Memory.write m a v) b = if b = a then v else Memory.read m b) ∧
  (∀ m n : Memory, m.wf = true → n.wf = true → (∀ a, Memory.read m a = Memory.read n a) → m = n)

/-- After FinishNMI, which clears the in-flight flag exactly where an NMI is in flight and STK is the captured value:
where the count with the cycles of the tick added does not exceed the threshold the driver step only adds them;
where it does and an NMI is still in flight, it resets the count and flips bit 7 of cell 0x2002 and does nothing
else, so that NMI is lost. (60_exceptions.md section 3 (R330, R332, R334; D23, D24)) -/
def Obligations.DriverStepCountsAndFlips : Prop :=
  ∀ (threshold cycles : Nat) (s : State),
    let inFlight := s.nmiInFlight && decide (s.stk ≠ s.nmiCapturedSP)
    (s.vblankCount + cycles ≤ threshold →
      driverStep threshold cycles s = .ok () { s with nmiInFlight := inFlight, vblankCount := s.vblankCount + cycles }) ∧
    (threshold < s.vblankCount + cycles → inFlight = true →
      driverStep threshold cycles s = .ok ()
        { s with vblankCount := 0, cpu := Memory.write s.cpu 0x2002 (s.cell 0x2002 ^^^ 0x80) })

/-- Where the count exceeds the threshold and after FinishNMI no NMI is in flight, with PC on the bus and STK at least
3: the driver step completes with the count reset, bit 7 of cell 0x2002 flipped, the in-flight flag set with STK
captured, PC and STATUS pushed as they stand (high byte, low byte, STATUS), I set and no other flag, PC at the
little-endian address at 0xFFFA, and nothing else changed, CYC and trace included; I set does not prevent it. With
PC off the bus it faults with AddressOutOfRange of PC, with STK less than 3 with StackOverflow at PC.
(60_exceptions.md section 3 (R330 to R333; D5, D7, D23, D24)) -/
def Obligations.DriverStepEntersTheNmi : Prop :=
  ∀ (threshold cycles : Nat) (s : State), threshold < s.vblankCount + cycles →
    (s.nmiInFlight && decide (s.stk ≠ s.nmiCapturedSP)) = false →
    (0 ≤ s.pc → s.pc ≤ 0xFFFF → 3 ≤ s.stk.toNat → ∃ status, FlagUpdated .I true s.status status ∧
      driverStep threshold cycles s = .ok ()
        { s with
          vblankCount := 0
          nmiInFlight := true
          nmiCapturedSP := s.stk
          cpu := Memory.write (Memory.write (Memory.write (Memory.write s.cpu 0x2002 (s.cell 0x2002 ^^^ 0x80))
            (0x0100 + s.stk.toNat) (BitVec.ofInt 8 (s.pc / 256)))
            (0x0100 + (s.stk.toNat - 1)) (BitVec.ofInt 8 s.pc))
            (0x0100 + (s.stk.toNat - 2)) s.status
          stk := s.stk - 3
          status := status
          pc := (((s.peek 0xFFFA).toNat + 256 * (s.peek 0xFFFB).toNat : Nat) : Int) }) ∧
    ((s.pc < 0 ∨ 0xFFFF < s.pc) → (driverStep threshold cycles s).outcome = .fault (.addressOutOfRange s.pc)) ∧
    (0 ≤ s.pc → s.pc ≤ 0xFFFF → s.stk.toNat < 3 → (driverStep threshold cycles s).outcome = .fault (.stackOverflow s.pc))

/-- From every state with canonical memory in which the driver step enters the NMI, RTI at the state it leaves completes
with PC, STATUS and STK as before the entry, and the next driver step, if it does not exceed the threshold, clears
the in-flight flag. (60_exceptions.md section 3 (R332, R335; D5, D23)) -/
def Obligations.RtiEndsTheNmi : Prop :=
  ∀ (threshold cycles cycles2 : Nat) (s t : State), s.cpu.wf = true → threshold < s.vblankCount + cycles →
    (s.nmiInFlight && decide (s.stk ≠ s.nmiCapturedSP)) = false → cycles2 ≤ threshold →
    driverStep threshold cycles s = .ok () t →
    ∃ u w, exec .rti t = .next u ∧ u.pc = s.pc ∧ u.status = s.status ∧ u.stk = s.stk ∧ u.nmiInFlight = true ∧
      driverStep threshold cycles2 u = .ok () w ∧ w.nmiInFlight = false

/-- FinishNMI clears the in-flight flag exactly where it is set and STK equals the captured value, and changes nothing
else; StartNMI sets the flag, records the current STK and changes nothing else. (R332; R333) -/
def Obligations.FinishAndStartNmi : Prop :=
  ∀ s : State,
    (s.nmiInFlight = true → s.stk = s.nmiCapturedSP → finishNmi s = { s with nmiInFlight := false }) ∧
    ((s.nmiInFlight = false ∨ s.stk ≠ s.nmiCapturedSP) → finishNmi s = s) ∧
    startNmi s = { s with nmiInFlight := true, nmiCapturedSP := s.stk }

/-- For every choice of parameters the constructed machine has ACC, X, Y, STK, STATUS and CYC zero (so every flag is 0),
PC at RESET_PC, the initial bytes in all cells, latch and toggle zero, both controller ports at index 0 with no last
write, no NMI in flight, vblank count zero, trace and banks empty and no fault; State.reset is that machine for the
default parameters. (10_state.md section 7 (R49; D8, D9, D19, D21, D23, D24, D25, D30); 70_reset_and_hazards.md
section 1 (R360, R361)) -/
def Obligations.ConstructionZeroesTheRegisters : Prop :=
  (∀ p : Params,
    let s := State.construct p
    s.acc = 0 ∧ s.x = 0 ∧ s.y = 0 ∧ s.stk = 0 ∧ s.status = 0 ∧ (∀ f, s.flag f = false) ∧ s.cyc = 0 ∧ s.pc = p.resetPc ∧
    s.cpu = p.cpuInit ∧ s.video = p.videoInit ∧ s.sprite = p.spriteInit ∧ s.vaddrLatch = 0 ∧ s.vaddrToggle = false ∧
    (∀ q, s.pad q = { index := 0, lastWrite := none }) ∧ s.nmiInFlight = false ∧ s.vblankCount = 0 ∧ s.trace = [] ∧
    s.prgBanks = [] ∧ s.chrBanks = [] ∧ s.fault = none) ∧
  State.reset = State.construct Params.default

/-- A load fails with InvalidRomFormat where the image is shorter than its 16-byte header or does not begin with NES and
0x1A; else with UnsupportedMapper where the mapper number (high nibble of byte 7, high nibble of byte 6) is not 0;
else with InvalidRomFormat where it names no program bank or is shorter than header, trainer and banks; else it
succeeds. (70_reset_and_hazards.md section 2 (R366; D30)) -/
def Obligations.LoadRejectsBadImages : Prop :=
  ∀ (p : Params) (r : List Byte),
    let byte := fun k => (imageByte r k).toNat
    let need := 16 + (if (imageByte r 6).getLsbD 2 then 512 else 0) + 16384 * byte 4 + 8192 * byte 5
    ((r.length < 16 ∨ r.take 4 ≠ [0x4E, 0x45, 0x53, 0x1A]) → load p r = .error .invalidRomFormat) ∧
    (16 ≤ r.length → r.take 4 = [0x4E, 0x45, 0x53, 0x1A] →
      (16 * (byte 7 / 16) + byte 6 / 16 ≠ 0 → load p r = .error .unsupportedMapper) ∧
      (16 * (byte 7 / 16) + byte 6 / 16 = 0 →
        ((byte 4 = 0 ∨ r.length < need) → load p r = .error .invalidRomFormat) ∧
        (byte 4 ≠ 0 → need ≤ r.length → ∃ s, load p r = .ok s)))

/-- After a successful load: the cells at 0x8000 + i hold the bytes of program bank 0, those at 0xC000 + i the bytes of
bank 0 again where there is one bank and of bank 1 where there are more, video cells 0..0x1FFF the bytes of
character bank 0 where there is one and their initial bytes where not, bit 7 of cell 0x2002 is set and its other
bits are as constructed, every other cell is as constructed, prgBanks and chrBanks are the program and character
banks of the image, as many slices of 16384 and of 8192 bytes as the header says, one after the other from the end
of the header and trainer on, and every register is at its construction value. (70_reset_and_hazards.md section 2
(R366 to R369; D30, D36, D39)) -/
def Obligations.LoadMapsTheCartridge : Prop :=
  ∀ (p : Params) (r : List Byte) (s : State), p.wf = true → load p r = .ok s →
    let prg := (imageByte r 4).toNat
    let chr := (imageByte r 5).toNat
    let off := 16 + (if (imageByte r 6).getLsbD 2 then 512 else 0)
    (∀ k, k < 16384 → s.peek (0x8000 + k) = imageByte r (off + k) ∧
      s.peek (0xC000 + k) = imageByte r (off + (if prg = 1 then 0 else 16384) + k)) ∧
    (∀ k, k < 8192 → s.vpeek k = if chr = 0 then Memory.read p.videoInit k else imageByte r (off + 16384 * prg + k)) ∧
    s.cell 0x2002 = Memory.read p.cpuInit 0x2002 ||| 0x80 ∧
    (∀ c, c < 0x8000 → c ≠ 0x2002 → s.cell c = Memory.read p.cpuInit c) ∧
    (∀ c, 0x2000 ≤ c → Memory.read s.video c = Memory.read p.videoInit c) ∧
    s.prgBanks.length = prg ∧ s.chrBanks.length = chr ∧
    s.prgBanks = (List.range prg).map (fun j => (r.drop (off + 16384 * j)).take 16384) ∧
    s.chrBanks = (List.range chr).map (fun j => (r.drop (off + 16384 * prg + 8192 * j)).take 8192) ∧
    s = { State.construct p with cpu := s.cpu, video := s.video, prgBanks := s.prgBanks, chrBanks := s.chrBanks } ∧ s.Inv

/-- At a run end (no fault, and the bytes stored at PC, none of them at a controller port, are JMP Absolute to PC
itself) with no driver attached, a step completes and changes nothing but CYC, which grows by 3, and the trace; so
the state it leaves is again a run end. (70_reset_and_hazards.md section 6 (R375, R376; D38); 60_exceptions.md
section 7 (R347; D35)) -/
def Obligations.SelfJumpKeepsThePc : Prop :=
  ∀ (s : State) (a : Addr), s.fault = none → s.vblankCycles = none → s.pc = a.toNat → a.toNat + 2 ≤ 0xFFFF →
    (∀ k, k < 3 → portAt (canon (a.toNat + k)) = none) →
    s.peek a.toNat = 0x4C → s.peek (a.toNat + 1) = lowByte a → s.peek (a.toNat + 2) = highByte a →
    atRunEnd s = true ∧ ∃ t, step s = .next t ∧ t = { s with
        cyc := s.cyc + 3
        trace := ({ opcode := 0x4C, mode := .absolute, pc := s.pc } :: s.trace).take 100 } ∧ atRunEnd t = true
end

