-- ==== Sys2Proof/Laws/Decode.lean ====
section
/-! SUPPORT. The bytes of an operand and the one equation of the decoder per form. -/

namespace Sys2Proof

theorem toNat_join (a b : Byte) : (joinBytes a b).toNat = a.toNat + 256 * b.toNat := by
  have := a.isLt; have := b.isLt
  show (b ++ a).toNat = _
  rw [BitVec.toNat_append, ← Nat.shiftLeft_add_eq_or_of_lt a.isLt, Nat.shiftLeft_eq]; omega

theorem toNat_lowByte (a : Addr) : (lowByte a).toNat = a.toNat % 256 := by
  simp [lowByte]

theorem toNat_highByte (a : Addr) : (highByte a).toNat = a.toNat / 256 := by
  have := a.isLt
  simp [highByte, Nat.shiftRight_eq_div_pow]; omega

theorem lowByte_join (a b : Byte) : lowByte (joinBytes a b) = a := by
  apply BitVec.eq_of_toNat_eq; have := a.isLt; have := b.isLt
  rw [toNat_lowByte, toNat_join]; omega

theorem highByte_join (a b : Byte) : highByte (joinBytes a b) = b := by
  apply BitVec.eq_of_toNat_eq; have := a.isLt; have := b.isLt
  rw [toNat_highByte, toNat_join]; omega

theorem join_low_high (a : Addr) : joinBytes (lowByte a) (highByte a) = a := by
  apply BitVec.eq_of_toNat_eq; have := a.isLt
  rw [toNat_join, toNat_lowByte, toNat_highByte]; omega

/-! A dictionary entry with its operand bytes present decodes to its instruction. -/

theorem decode_bare {op : Byte} {i : Instr} (h : dict op = some (.bare i)) (bs : List Byte) : decode (op :: bs) = .ok (i, bs) := by
  simp only [decode, h]

theorem decode_byte {op : Byte} {f : Byte → Instr} (h : dict op = some (.byte f)) (b : Byte) (bs : List Byte) : decode (op :: b :: bs) = .ok (f b, bs) := by
  simp only [decode, h]

theorem decode_word {op : Byte} {f : Addr → Instr} (h : dict op = some (.word f)) (a : Addr) (bs : List Byte) : decode (op :: lowByte a :: highByte a :: bs) = .ok (f a, bs) := by
  simp only [decode, h, join_low_high]

/-- What the dictionary answers is an entry of the table with that opcode. -/
theorem dict_some {op : Byte} {f : Form} (h : dict op = some f) : f ∈ forms ∧ f.entry.opcode = op := by
  unfold dict at h
  exact ⟨List.mem_of_find?_eq_some h, by have := List.find?_some h; simpa using this⟩

end Sys2Proof
end

