-- ==== Sys2Proof/Laws/State.lean ====
section
/-! SUPPORT. One lemma per field per named update of State. -/

namespace Sys2Proof.Machine

variable (s : State)

/-! ### setFlag -/

@[simp] theorem setFlag_acc (f : Flag) (b : Bool) : (s.setFlag f b).acc = s.acc := rfl
@[simp] theorem setFlag_x (f : Flag) (b : Bool) : (s.setFlag f b).x = s.x := rfl
@[simp] theorem setFlag_y (f : Flag) (b : Bool) : (s.setFlag f b).y = s.y := rfl
@[simp] theorem setFlag_stk (f : Flag) (b : Bool) : (s.setFlag f b).stk = s.stk := rfl
@[simp] theorem setFlag_pc (f : Flag) (b : Bool) : (s.setFlag f b).pc = s.pc := rfl
@[simp] theorem setFlag_status (f : Flag) (b : Bool) : (s.setFlag f b).status = putFlag f b s.status := rfl
@[simp] theorem setFlag_cyc (f : Flag) (b : Bool) : (s.setFlag f b).cyc = s.cyc := rfl
@[simp] theorem setFlag_cpu (f : Flag) (b : Bool) : (s.setFlag f b).cpu = s.cpu := rfl
@[simp] theorem setFlag_video (f : Flag) (b : Bool) : (s.setFlag f b).video = s.video := rfl
@[simp] theorem setFlag_sprite (f : Flag) (b : Bool) : (s.setFlag f b).sprite = s.sprite := rfl
@[simp] theorem setFlag_vaddrLatch (f : Flag) (b : Bool) : (s.setFlag f b).vaddrLatch = s.vaddrLatch := rfl
@[simp] theorem setFlag_vaddrToggle (f : Flag) (b : Bool) : (s.setFlag f b).vaddrToggle = s.vaddrToggle := rfl
@[simp] theorem setFlag_padOne (f : Flag) (b : Bool) : (s.setFlag f b).padOne = s.padOne := rfl
@[simp] theorem setFlag_padTwo (f : Flag) (b : Bool) : (s.setFlag f b).padTwo = s.padTwo := rfl
@[simp] theorem setFlag_nmiInFlight (f : Flag) (b : Bool) : (s.setFlag f b).nmiInFlight = s.nmiInFlight := rfl
@[simp] theorem setFlag_nmiCapturedSP (f : Flag) (b : Bool) : (s.setFlag f b).nmiCapturedSP = s.nmiCapturedSP := rfl
@[simp] theorem setFlag_vblankCount (f : Flag) (b : Bool) : (s.setFlag f b).vblankCount = s.vblankCount := rfl
@[simp] theorem setFlag_trace (f : Flag) (b : Bool) : (s.setFlag f b).trace = s.trace := rfl
@[simp] theorem setFlag_prgBanks (f : Flag) (b : Bool) : (s.setFlag f b).prgBanks = s.prgBanks := rfl
@[simp] theorem setFlag_chrBanks (f : Flag) (b : Bool) : (s.setFlag f b).chrBanks = s.chrBanks := rfl
@[simp] theorem setFlag_fault (f : Flag) (b : Bool) : (s.setFlag f b).fault = s.fault := rfl
@[simp] theorem setFlag_vblankCycles (f : Flag) (b : Bool) : (s.setFlag f b).vblankCycles = s.vblankCycles := rfl
@[simp] theorem setFlag_buttonDraws (f : Flag) (b : Bool) : (s.setFlag f b).buttonDraws = s.buttonDraws := rfl

/-! ### setZN -/

@[simp] theorem setZN_acc (v : Byte) : (s.setZN v).acc = s.acc := rfl
@[simp] theorem setZN_x (v : Byte) : (s.setZN v).x = s.x := rfl
@[simp] theorem setZN_y (v : Byte) : (s.setZN v).y = s.y := rfl
@[simp] theorem setZN_stk (v : Byte) : (s.setZN v).stk = s.stk := rfl
@[simp] theorem setZN_pc (v : Byte) : (s.setZN v).pc = s.pc := rfl
@[simp] theorem setZN_status (v : Byte) : (s.setZN v).status = statusZN v s.status := rfl
@[simp] theorem setZN_cyc (v : Byte) : (s.setZN v).cyc = s.cyc := rfl
@[simp] theorem setZN_cpu (v : Byte) : (s.setZN v).cpu = s.cpu := rfl
@[simp] theorem setZN_video (v : Byte) : (s.setZN v).video = s.video := rfl
@[simp] theorem setZN_sprite (v : Byte) : (s.setZN v).sprite = s.sprite := rfl
@[simp] theorem setZN_vaddrLatch (v : Byte) : (s.setZN v).vaddrLatch = s.vaddrLatch := rfl
@[simp] theorem setZN_vaddrToggle (v : Byte) : (s.setZN v).vaddrToggle = s.vaddrToggle := rfl
@[simp] theorem setZN_padOne (v : Byte) : (s.setZN v).padOne = s.padOne := rfl
@[simp] theorem setZN_padTwo (v : Byte) : (s.setZN v).padTwo = s.padTwo := rfl
@[simp] theorem setZN_nmiInFlight (v : Byte) : (s.setZN v).nmiInFlight = s.nmiInFlight := rfl
@[simp] theorem setZN_nmiCapturedSP (v : Byte) : (s.setZN v).nmiCapturedSP = s.nmiCapturedSP := rfl
@[simp] theorem setZN_vblankCount (v : Byte) : (s.setZN v).vblankCount = s.vblankCount := rfl
@[simp] theorem setZN_trace (v : Byte) : (s.setZN v).trace = s.trace := rfl
@[simp] theorem setZN_prgBanks (v : Byte) : (s.setZN v).prgBanks = s.prgBanks := rfl
@[simp] theorem setZN_chrBanks (v : Byte) : (s.setZN v).chrBanks = s.chrBanks := rfl
@[simp] theorem setZN_fault (v : Byte) : (s.setZN v).fault = s.fault := rfl
@[simp] theorem setZN_vblankCycles (v : Byte) : (s.setZN v).vblankCycles = s.vblankCycles := rfl
@[simp] theorem setZN_buttonDraws (v : Byte) : (s.setZN v).buttonDraws = s.buttonDraws := rfl

/-! ### setCell -/

@[simp] theorem setCell_acc (c : Nat) (v : Byte) : (s.setCell c v).acc = s.acc := rfl
@[simp] theorem setCell_x (c : Nat) (v : Byte) : (s.setCell c v).x = s.x := rfl
@[simp] theorem setCell_y (c : Nat) (v : Byte) : (s.setCell c v).y = s.y := rfl
@[simp] theorem setCell_stk (c : Nat) (v : Byte) : (s.setCell c v).stk = s.stk := rfl
@[simp] theorem setCell_pc (c : Nat) (v : Byte) : (s.setCell c v).pc = s.pc := rfl
@[simp] theorem setCell_status (c : Nat) (v : Byte) : (s.setCell c v).status = s.status := rfl
@[simp] theorem setCell_cyc (c : Nat) (v : Byte) : (s.setCell c v).cyc = s.cyc := rfl
@[simp] theorem setCell_cpu (c : Nat) (v : Byte) : (s.setCell c v).cpu = Memory.write s.cpu c v := rfl
@[simp] theorem setCell_video (c : Nat) (v : Byte) : (s.setCell c v).video = s.video := rfl
@[simp] theorem setCell_sprite (c : Nat) (v : Byte) : (s.setCell c v).sprite = s.sprite := rfl
@[simp] theorem setCell_vaddrLatch (c : Nat) (v : Byte) : (s.setCell c v).vaddrLatch = s.vaddrLatch := rfl
@[simp] theorem setCell_vaddrToggle (c : Nat) (v : Byte) : (s.setCell c v).vaddrToggle = s.vaddrToggle := rfl
@[simp] theorem setCell_padOne (c : Nat) (v : Byte) : (s.setCell c v).padOne = s.padOne := rfl
@[simp] theorem setCell_padTwo (c : Nat) (v : Byte) : (s.setCell c v).padTwo = s.padTwo := rfl
@[simp] theorem setCell_nmiInFlight (c : Nat) (v : Byte) : (s.setCell c v).nmiInFlight = s.nmiInFlight := rfl
@[simp] theorem setCell_nmiCapturedSP (c : Nat) (v : Byte) : (s.setCell c v).nmiCapturedSP = s.nmiCapturedSP := rfl
@[simp] theorem setCell_vblankCount (c : Nat) (v : Byte) : (s.setCell c v).vblankCount = s.vblankCount := rfl
@[simp] theorem setCell_trace (c : Nat) (v : Byte) : (s.setCell c v).trace = s.trace := rfl
@[simp] theorem setCell_prgBanks (c : Nat) (v : Byte) : (s.setCell c v).prgBanks = s.prgBanks := rfl
@[simp] theorem setCell_chrBanks (c : Nat) (v : Byte) : (s.setCell c v).chrBanks = s.chrBanks := rfl
@[simp] theorem setCell_fault (c : Nat) (v : Byte) : (s.setCell c v).fault = s.fault := rfl
@[simp] theorem setCell_vblankCycles (c : Nat) (v : Byte) : (s.setCell c v).vblankCycles = s.vblankCycles := rfl
@[simp] theorem setCell_buttonDraws (c : Nat) (v : Byte) : (s.setCell c v).buttonDraws = s.buttonDraws := rfl

/-! ### advance -/

@[simp] theorem advance_acc (o : Operand) : (s.advance o).acc = s.acc := rfl
@[simp] theorem advance_x (o : Operand) : (s.advance o).x = s.x := rfl
@[simp] theorem advance_y (o : Operand) : (s.advance o).y = s.y := rfl
@[simp] theorem advance_stk (o : Operand) : (s.advance o).stk = s.stk := rfl
@[simp] theorem advance_pc (o : Operand) : (s.advance o).pc = s.pc + o.mode.length := rfl
@[simp] theorem advance_status (o : Operand) : (s.advance o).status = s.status := rfl
@[simp] theorem advance_cyc (o : Operand) : (s.advance o).cyc = s.cyc := rfl
@[simp] theorem advance_cpu (o : Operand) : (s.advance o).cpu = s.cpu := rfl
@[simp] theorem advance_video (o : Operand) : (s.advance o).video = s.video := rfl
@[simp] theorem advance_sprite (o : Operand) : (s.advance o).sprite = s.sprite := rfl
@[simp] theorem advance_vaddrLatch (o : Operand) : (s.advance o).vaddrLatch = s.vaddrLatch := rfl
@[simp] theorem advance_vaddrToggle (o : Operand) : (s.advance o).vaddrToggle = s.vaddrToggle := rfl
@[simp] theorem advance_padOne (o : Operand) : (s.advance o).padOne = s.padOne := rfl
@[simp] theorem advance_padTwo (o : Operand) : (s.advance o).padTwo = s.padTwo := rfl
@[simp] theorem advance_nmiInFlight (o : Operand) : (s.advance o).nmiInFlight = s.nmiInFlight := rfl
@[simp] theorem advance_nmiCapturedSP (o : Operand) : (s.advance o).nmiCapturedSP = s.nmiCapturedSP := rfl
@[simp] theorem advance_vblankCount (o : Operand) : (s.advance o).vblankCount = s.vblankCount := rfl
@[simp] theorem advance_trace (o : Operand) : (s.advance o).trace = s.trace := rfl
@[simp] theorem advance_prgBanks (o : Operand) : (s.advance o).prgBanks = s.prgBanks := rfl
@[simp] theorem advance_chrBanks (o : Operand) : (s.advance o).chrBanks = s.chrBanks := rfl
@[simp] theorem advance_fault (o : Operand) : (s.advance o).fault = s.fault := rfl
@[simp] theorem advance_vblankCycles (o : Operand) : (s.advance o).vblankCycles = s.vblankCycles := rfl
@[simp] theorem advance_buttonDraws (o : Operand) : (s.advance o).buttonDraws = s.buttonDraws := rfl

/-! ### account -/

@[simp] theorem account_acc (e : Entry) (pc0 : Int) (c k : Bool) : (account e pc0 c k s).acc = s.acc := rfl
@[simp] theorem account_x (e : Entry) (pc0 : Int) (c k : Bool) : (account e pc0 c k s).x = s.x := rfl
@[simp] theorem account_y (e : Entry) (pc0 : Int) (c k : Bool) : (account e pc0 c k s).y = s.y := rfl
@[simp] theorem account_stk (e : Entry) (pc0 : Int) (c k : Bool) : (account e pc0 c k s).stk = s.stk := rfl
@[simp] theorem account_pc (e : Entry) (pc0 : Int) (c k : Bool) : (account e pc0 c k s).pc = s.pc := rfl
@[simp] theorem account_status (e : Entry) (pc0 : Int) (c k : Bool) : (account e pc0 c k s).status = s.status := rfl
@[simp] theorem account_cyc (e : Entry) (pc0 : Int) (c k : Bool) : (account e pc0 c k s).cyc = s.cyc + realizedCycles e c k := rfl
@[simp] theorem account_cpu (e : Entry) (pc0 : Int) (c k : Bool) : (account e pc0 c k s).cpu = s.cpu := rfl
@[simp] theorem account_video (e : Entry) (pc0 : Int) (c k : Bool) : (account e pc0 c k s).video = s.video := rfl
@[simp] theorem account_sprite (e : Entry) (pc0 : Int) (c k : Bool) : (account e pc0 c k s).sprite = s.sprite := rfl
@[simp] theorem account_vaddrLatch (e : Entry) (pc0 : Int) (c k : Bool) : (account e pc0 c k s).vaddrLatch = s.vaddrLatch := rfl
@[simp] theorem account_vaddrToggle (e : Entry) (pc0 : Int) (c k : Bool) : (account e pc0 c k s).vaddrToggle = s.vaddrToggle := rfl
@[simp] theorem account_padOne (e : Entry) (pc0 : Int) (c k : Bool) : (account e pc0 c k s).padOne = s.padOne := rfl
@[simp] theorem account_padTwo (e : Entry) (pc0 : Int) (c k : Bool) : (account e pc0 c k s).padTwo = s.padTwo := rfl
@[simp] theorem account_nmiInFlight (e : Entry) (pc0 : Int) (c k : Bool) : (account e pc0 c k s).nmiInFlight = s.nmiInFlight := rfl
@[simp] theorem account_nmiCapturedSP (e : Entry) (pc0 : Int) (c k : Bool) : (account e pc0 c k s).nmiCapturedSP = s.nmiCapturedSP := rfl
@[simp] theorem account_vblankCount (e : Entry) (pc0 : Int) (c k : Bool) : (account e pc0 c k s).vblankCount = s.vblankCount := rfl
@[simp] theorem account_trace (e : Entry) (pc0 : Int) (c k : Bool) : (account e pc0 c k s).trace = ({ opcode := e.opcode, mode := e.mode, pc := pc0 } :: s.trace).take 100 := rfl
@[simp] theorem account_prgBanks (e : Entry) (pc0 : Int) (c k : Bool) : (account e pc0 c k s).prgBanks = s.prgBanks := rfl
@[simp] theorem account_chrBanks (e : Entry) (pc0 : Int) (c k : Bool) : (account e pc0 c k s).chrBanks = s.chrBanks := rfl
@[simp] theorem account_fault (e : Entry) (pc0 : Int) (c k : Bool) : (account e pc0 c k s).fault = s.fault := rfl
@[simp] theorem account_vblankCycles (e : Entry) (pc0 : Int) (c k : Bool) : (account e pc0 c k s).vblankCycles = s.vblankCycles := rfl
@[simp] theorem account_buttonDraws (e : Entry) (pc0 : Int) (c k : Bool) : (account e pc0 c k s).buttonDraws = s.buttonDraws := rfl

/-! ### setPad -/

@[simp] theorem setPad_acc (p : Port) (d : Pad) : (s.setPad p d).acc = s.acc := by cases p <;> rfl
@[simp] theorem setPad_x (p : Port) (d : Pad) : (s.setPad p d).x = s.x := by cases p <;> rfl
@[simp] theorem setPad_y (p : Port) (d : Pad) : (s.setPad p d).y = s.y := by cases p <;> rfl
@[simp] theorem setPad_stk (p : Port) (d : Pad) : (s.setPad p d).stk = s.stk := by cases p <;> rfl
@[simp] theorem setPad_pc (p : Port) (d : Pad) : (s.setPad p d).pc = s.pc := by cases p <;> rfl
@[simp] theorem setPad_status (p : Port) (d : Pad) : (s.setPad p d).status = s.status := by cases p <;> rfl
@[simp] theorem setPad_cyc (p : Port) (d : Pad) : (s.setPad p d).cyc = s.cyc := by cases p <;> rfl
@[simp] theorem setPad_cpu (p : Port) (d : Pad) : (s.setPad p d).cpu = s.cpu := by cases p <;> rfl
@[simp] theorem setPad_video (p : Port) (d : Pad) : (s.setPad p d).video = s.video := by cases p <;> rfl
@[simp] theorem setPad_sprite (p : Port) (d : Pad) : (s.setPad p d).sprite = s.sprite := by cases p <;> rfl
@[simp] theorem setPad_vaddrLatch (p : Port) (d : Pad) : (s.setPad p d).vaddrLatch = s.vaddrLatch := by cases p <;> rfl
@[simp] theorem setPad_vaddrToggle (p : Port) (d : Pad) : (s.setPad p d).vaddrToggle = s.vaddrToggle := by cases p <;> rfl
@[simp] theorem setPad_nmiInFlight (p : Port) (d : Pad) : (s.setPad p d).nmiInFlight = s.nmiInFlight := by cases p <;> rfl
@[simp] theorem setPad_nmiCapturedSP (p : Port) (d : Pad) : (s.setPad p d).nmiCapturedSP = s.nmiCapturedSP := by cases p <;> rfl
@[simp] theorem setPad_vblankCount (p : Port) (d : Pad) : (s.setPad p d).vblankCount = s.vblankCount := by cases p <;> rfl
@[simp] theorem setPad_trace (p : Port) (d : Pad) : (s.setPad p d).trace = s.trace := by cases p <;> rfl
@[simp] theorem setPad_prgBanks (p : Port) (d : Pad) : (s.setPad p d).prgBanks = s.prgBanks := by cases p <;> rfl
@[simp] theorem setPad_chrBanks (p : Port) (d : Pad) : (s.setPad p d).chrBanks = s.chrBanks := by cases p <;> rfl
@[simp] theorem setPad_fault (p : Port) (d : Pad) : (s.setPad p d).fault = s.fault := by cases p <;> rfl
@[simp] theorem setPad_vblankCycles (p : Port) (d : Pad) : (s.setPad p d).vblankCycles = s.vblankCycles := by cases p <;> rfl
@[simp] theorem setPad_buttonDraws (p : Port) (d : Pad) : (s.setPad p d).buttonDraws = s.buttonDraws := by cases p <;> rfl

@[simp] theorem pad_setPad_same (p : Port) (d : Pad) : (s.setPad p d).pad p = d := by cases p <;> rfl

theorem pad_setPad_other (p q : Port) (d : Pad) (h : q ≠ p) : (s.setPad p d).pad q = s.pad q := by
  cases p <;> cases q <;> first | rfl | exact absurd rfl h

/-! ### Reading a port: only the port's index and the draw count change -/

@[simp] theorem padRead_acc (p : Port) : ((padRead p s).2).acc = s.acc := by cases p <;> rfl
@[simp] theorem padRead_x (p : Port) : ((padRead p s).2).x = s.x := by cases p <;> rfl
@[simp] theorem padRead_y (p : Port) : ((padRead p s).2).y = s.y := by cases p <;> rfl
@[simp] theorem padRead_stk (p : Port) : ((padRead p s).2).stk = s.stk := by cases p <;> rfl
@[simp] theorem padRead_pc (p : Port) : ((padRead p s).2).pc = s.pc := by cases p <;> rfl
@[simp] theorem padRead_status (p : Port) : ((padRead p s).2).status = s.status := by cases p <;> rfl
@[simp] theorem padRead_cyc (p : Port) : ((padRead p s).2).cyc = s.cyc := by cases p <;> rfl
@[simp] theorem padRead_cpu (p : Port) : ((padRead p s).2).cpu = s.cpu := by cases p <;> rfl
@[simp] theorem padRead_video (p : Port) : ((padRead p s).2).video = s.video := by cases p <;> rfl
@[simp] theorem padRead_sprite (p : Port) : ((padRead p s).2).sprite = s.sprite := by cases p <;> rfl
@[simp] theorem padRead_vaddrLatch (p : Port) : ((padRead p s).2).vaddrLatch = s.vaddrLatch := by cases p <;> rfl
@[simp] theorem padRead_vaddrToggle (p : Port) : ((padRead p s).2).vaddrToggle = s.vaddrToggle := by cases p <;> rfl
@[simp] theorem padRead_nmiInFlight (p : Port) : ((padRead p s).2).nmiInFlight = s.nmiInFlight := by cases p <;> rfl
@[simp] theorem padRead_nmiCapturedSP (p : Port) : ((padRead p s).2).nmiCapturedSP = s.nmiCapturedSP := by cases p <;> rfl
@[simp] theorem padRead_vblankCount (p : Port) : ((padRead p s).2).vblankCount = s.vblankCount := by cases p <;> rfl
@[simp] theorem padRead_trace (p : Port) : ((padRead p s).2).trace = s.trace := by cases p <;> rfl
@[simp] theorem padRead_prgBanks (p : Port) : ((padRead p s).2).prgBanks = s.prgBanks := by cases p <;> rfl
@[simp] theorem padRead_chrBanks (p : Port) : ((padRead p s).2).chrBanks = s.chrBanks := by cases p <;> rfl
@[simp] theorem padRead_fault (p : Port) : ((padRead p s).2).fault = s.fault := by cases p <;> rfl
@[simp] theorem padRead_vblankCycles (p : Port) : ((padRead p s).2).vblankCycles = s.vblankCycles := by cases p <;> rfl
@[simp] theorem padRead_buttonDraws (p : Port) : ((padRead p s).2).buttonDraws = s.buttonDraws + 1 := by cases p <;> rfl

/-! ### Writing a port -/

@[simp] theorem padWrite_acc (p : Port) (v : Byte) : (padWrite p v s).acc = s.acc := by cases p <;> rfl
@[simp] theorem padWrite_x (p : Port) (v : Byte) : (padWrite p v s).x = s.x := by cases p <;> rfl
@[simp] theorem padWrite_y (p : Port) (v : Byte) : (padWrite p v s).y = s.y := by cases p <;> rfl
@[simp] theorem padWrite_stk (p : Port) (v : Byte) : (padWrite p v s).stk = s.stk := by cases p <;> rfl
@[simp] theorem padWrite_pc (p : Port) (v : Byte) : (padWrite p v s).pc = s.pc := by cases p <;> rfl
@[simp] theorem padWrite_status (p : Port) (v : Byte) : (padWrite p v s).status = s.status := by cases p <;> rfl
@[simp] theorem padWrite_cyc (p : Port) (v : Byte) : (padWrite p v s).cyc = s.cyc := by cases p <;> rfl
@[simp] theorem padWrite_cpu (p : Port) (v : Byte) : (padWrite p v s).cpu = s.cpu := by cases p <;> rfl
@[simp] theorem padWrite_video (p : Port) (v : Byte) : (padWrite p v s).video = s.video := by cases p <;> rfl
@[simp] theorem padWrite_sprite (p : Port) (v : Byte) : (padWrite p v s).sprite = s.sprite := by cases p <;> rfl
@[simp] theorem padWrite_vaddrLatch (p : Port) (v : Byte) : (padWrite p v s).vaddrLatch = s.vaddrLatch := by cases p <;> rfl
@[simp] theorem padWrite_vaddrToggle (p : Port) (v : Byte) : (padWrite p v s).vaddrToggle = s.vaddrToggle := by cases p <;> rfl
@[simp] theorem padWrite_nmiInFlight (p : Port) (v : Byte) : (padWrite p v s).nmiInFlight = s.nmiInFlight := by cases p <;> rfl
@[simp] theorem padWrite_nmiCapturedSP (p : Port) (v : Byte) : (padWrite p v s).nmiCapturedSP = s.nmiCapturedSP := by cases p <;> rfl
@[simp] theorem padWrite_vblankCount (p : Port) (v : Byte) : (padWrite p v s).vblankCount = s.vblankCount := by cases p <;> rfl
@[simp] theorem padWrite_trace (p : Port) (v : Byte) : (padWrite p v s).trace = s.trace := by cases p <;> rfl
@[simp] theorem padWrite_prgBanks (p : Port) (v : Byte) : (padWrite p v s).prgBanks = s.prgBanks := by cases p <;> rfl
@[simp] theorem padWrite_chrBanks (p : Port) (v : Byte) : (padWrite p v s).chrBanks = s.chrBanks := by cases p <;> rfl
@[simp] theorem padWrite_fault (p : Port) (v : Byte) : (padWrite p v s).fault = s.fault := by cases p <;> rfl
@[simp] theorem padWrite_vblankCycles (p : Port) (v : Byte) : (padWrite p v s).vblankCycles = s.vblankCycles := by cases p <;> rfl
@[simp] theorem padWrite_buttonDraws (p : Port) (v : Byte) : (padWrite p v s).buttonDraws = s.buttonDraws := by cases p <;> rfl

/-! ### A bus read: only the ports and the draw count can change -/

@[simp] theorem busRead_acc (a : Nat) : ((busRead a s).2).acc = s.acc := by unfold busRead; split <;> simp
@[simp] theorem busRead_x (a : Nat) : ((busRead a s).2).x = s.x := by unfold busRead; split <;> simp
@[simp] theorem busRead_y (a : Nat) : ((busRead a s).2).y = s.y := by unfold busRead; split <;> simp
@[simp] theorem busRead_stk (a : Nat) : ((busRead a s).2).stk = s.stk := by unfold busRead; split <;> simp
@[simp] theorem busRead_pc (a : Nat) : ((busRead a s).2).pc = s.pc := by unfold busRead; split <;> simp
@[simp] theorem busRead_status (a : Nat) : ((busRead a s).2).status = s.status := by unfold busRead; split <;> simp
@[simp] theorem busRead_cyc (a : Nat) : ((busRead a s).2).cyc = s.cyc := by unfold busRead; split <;> simp
@[simp] theorem busRead_cpu (a : Nat) : ((busRead a s).2).cpu = s.cpu := by unfold busRead; split <;> simp
@[simp] theorem busRead_video (a : Nat) : ((busRead a s).2).video = s.video := by unfold busRead; split <;> simp
@[simp] theorem busRead_sprite (a : Nat) : ((busRead a s).2).sprite = s.sprite := by unfold busRead; split <;> simp
@[simp] theorem busRead_vaddrLatch (a : Nat) : ((busRead a s).2).vaddrLatch = s.vaddrLatch := by unfold busRead; split <;> simp
@[simp] theorem busRead_vaddrToggle (a : Nat) : ((busRead a s).2).vaddrToggle = s.vaddrToggle := by unfold busRead; split <;> simp
@[simp] theorem busRead_nmiInFlight (a : Nat) : ((busRead a s).2).nmiInFlight = s.nmiInFlight := by unfold busRead; split <;> simp
@[simp] theorem busRead_nmiCapturedSP (a : Nat) : ((busRead a s).2).nmiCapturedSP = s.nmiCapturedSP := by unfold busRead; split <;> simp
@[simp] theorem busRead_vblankCount (a : Nat) : ((busRead a s).2).vblankCount = s.vblankCount := by unfold busRead; split <;> simp
@[simp] theorem busRead_trace (a : Nat) : ((busRead a s).2).trace = s.trace := by unfold busRead; split <;> simp
@[simp] theorem busRead_prgBanks (a : Nat) : ((busRead a s).2).prgBanks = s.prgBanks := by unfold busRead; split <;> simp
@[simp] theorem busRead_chrBanks (a : Nat) : ((busRead a s).2).chrBanks = s.chrBanks := by unfold busRead; split <;> simp
@[simp] theorem busRead_fault (a : Nat) : ((busRead a s).2).fault = s.fault := by unfold busRead; split <;> simp
@[simp] theorem busRead_vblankCycles (a : Nat) : ((busRead a s).2).vblankCycles = s.vblankCycles := by unfold busRead; split <;> simp

/-! ### The video address port -/

@[simp] theorem addrPortWrite_acc (v : Byte) : (addrPortWrite v s).acc = s.acc := by unfold addrPortWrite; split <;> simp
@[simp] theorem addrPortWrite_x (v : Byte) : (addrPortWrite v s).x = s.x := by unfold addrPortWrite; split <;> simp
@[simp] theorem addrPortWrite_y (v : Byte) : (addrPortWrite v s).y = s.y := by unfold addrPortWrite; split <;> simp
@[simp] theorem addrPortWrite_stk (v : Byte) : (addrPortWrite v s).stk = s.stk := by unfold addrPortWrite; split <;> simp
@[simp] theorem addrPortWrite_pc (v : Byte) : (addrPortWrite v s).pc = s.pc := by unfold addrPortWrite; split <;> simp
@[simp] theorem addrPortWrite_status (v : Byte) : (addrPortWrite v s).status = s.status := by unfold addrPortWrite; split <;> simp
@[simp] theorem addrPortWrite_cyc (v : Byte) : (addrPortWrite v s).cyc = s.cyc := by unfold addrPortWrite; split <;> simp
@[simp] theorem addrPortWrite_cpu (v : Byte) : (addrPortWrite v s).cpu = s.cpu := by unfold addrPortWrite; split <;> simp
@[simp] theorem addrPortWrite_video (v : Byte) : (addrPortWrite v s).video = s.video := by unfold addrPortWrite; split <;> simp
@[simp] theorem addrPortWrite_sprite (v : Byte) : (addrPortWrite v s).sprite = s.sprite := by unfold addrPortWrite; split <;> simp
@[simp] theorem addrPortWrite_padOne (v : Byte) : (addrPortWrite v s).padOne = s.padOne := by unfold addrPortWrite; split <;> simp
@[simp] theorem addrPortWrite_padTwo (v : Byte) : (addrPortWrite v s).padTwo = s.padTwo := by unfold addrPortWrite; split <;> simp
@[simp] theorem addrPortWrite_nmiInFlight (v : Byte) : (addrPortWrite v s).nmiInFlight = s.nmiInFlight := by unfold addrPortWrite; split <;> simp
@[simp] theorem addrPortWrite_nmiCapturedSP (v : Byte) : (addrPortWrite v s).nmiCapturedSP = s.nmiCapturedSP := by unfold addrPortWrite; split <;> simp
@[simp] theorem addrPortWrite_vblankCount (v : Byte) : (addrPortWrite v s).vblankCount = s.vblankCount := by unfold addrPortWrite; split <;> simp
@[simp] theorem addrPortWrite_trace (v : Byte) : (addrPortWrite v s).trace = s.trace := by unfold addrPortWrite; split <;> simp
@[simp] theorem addrPortWrite_prgBanks (v : Byte) : (addrPortWrite v s).prgBanks = s.prgBanks := by unfold addrPortWrite; split <;> simp
@[simp] theorem addrPortWrite_chrBanks (v : Byte) : (addrPortWrite v s).chrBanks = s.chrBanks := by unfold addrPortWrite; split <;> simp
@[simp] theorem addrPortWrite_fault (v : Byte) : (addrPortWrite v s).fault = s.fault := by unfold addrPortWrite; split <;> simp
@[simp] theorem addrPortWrite_vblankCycles (v : Byte) : (addrPortWrite v s).vblankCycles = s.vblankCycles := by unfold addrPortWrite; split <;> simp
@[simp] theorem addrPortWrite_buttonDraws (v : Byte) : (addrPortWrite v s).buttonDraws = s.buttonDraws := by unfold addrPortWrite; split <;> simp

/-! ### The sprite port -/

@[simp] theorem spritePortWrite_acc (v : Byte) : (spritePortWrite v s).acc = s.acc := rfl
@[simp] theorem spritePortWrite_x (v : Byte) : (spritePortWrite v s).x = s.x := rfl
@[simp] theorem spritePortWrite_y (v : Byte) : (spritePortWrite v s).y = s.y := rfl
@[simp] theorem spritePortWrite_stk (v : Byte) : (spritePortWrite v s).stk = s.stk := rfl
@[simp] theorem spritePortWrite_pc (v : Byte) : (spritePortWrite v s).pc = s.pc := rfl
@[simp] theorem spritePortWrite_status (v : Byte) : (spritePortWrite v s).status = s.status := rfl
@[simp] theorem spritePortWrite_cyc (v : Byte) : (spritePortWrite v s).cyc = s.cyc := rfl
@[simp] theorem spritePortWrite_video (v : Byte) : (spritePortWrite v s).video = s.video := rfl
@[simp] theorem spritePortWrite_vaddrLatch (v : Byte) : (spritePortWrite v s).vaddrLatch = s.vaddrLatch := rfl
@[simp] theorem spritePortWrite_vaddrToggle (v : Byte) : (spritePortWrite v s).vaddrToggle = s.vaddrToggle := rfl
@[simp] theorem spritePortWrite_padOne (v : Byte) : (spritePortWrite v s).padOne = s.padOne := rfl
@[simp] theorem spritePortWrite_padTwo (v : Byte) : (spritePortWrite v s).padTwo = s.padTwo := rfl
@[simp] theorem spritePortWrite_nmiInFlight (v : Byte) : (spritePortWrite v s).nmiInFlight = s.nmiInFlight := rfl
@[simp] theorem spritePortWrite_nmiCapturedSP (v : Byte) : (spritePortWrite v s).nmiCapturedSP = s.nmiCapturedSP := rfl
@[simp] theorem spritePortWrite_vblankCount (v : Byte) : (spritePortWrite v s).vblankCount = s.vblankCount := rfl
@[simp] theorem spritePortWrite_trace (v : Byte) : (spritePortWrite v s).trace = s.trace := rfl
@[simp] theorem spritePortWrite_prgBanks (v : Byte) : (spritePortWrite v s).prgBanks = s.prgBanks := rfl
@[simp] theorem spritePortWrite_chrBanks (v : Byte) : (spritePortWrite v s).chrBanks = s.chrBanks := rfl
@[simp] theorem spritePortWrite_fault (v : Byte) : (spritePortWrite v s).fault = s.fault := rfl
@[simp] theorem spritePortWrite_vblankCycles (v : Byte) : (spritePortWrite v s).vblankCycles = s.vblankCycles := rfl
@[simp] theorem spritePortWrite_buttonDraws (v : Byte) : (spritePortWrite v s).buttonDraws = s.buttonDraws := rfl

end Sys2Proof.Machine
end

