-- ==== Sys2Proof/Laws/Flags.lean ====
section
/-! SUPPORT. What reading a flag gives after each flag update, and the arithmetic meaning of the combinators. -/

namespace Sys2Proof.Machine

@[simp] theorem getFlag_putFlag_same (f : Flag) (b : Bool) (st : Byte) : getFlag f (putFlag f b st) = b := by
  cases f <;> cases b <;> simp [getFlag, putFlag, Flag.bit, Flag.mask]

theorem getFlag_putFlag_other (f g : Flag) (b : Bool) (st : Byte) (h : g ≠ f) :
    getFlag g (putFlag f b st) = getFlag g st := by
  cases f <;> cases g <;> first
    | exact absurd rfl h
    | (cases b <;> simp [getFlag, putFlag, Flag.bit, Flag.mask])

theorem getFlag_putFlag (f g : Flag) (b : Bool) (st : Byte) :
    getFlag g (putFlag f b st) = if g = f then b else getFlag g st := by
  split
  · subst g; simp
  · exact getFlag_putFlag_other f g b st ‹_›

@[simp] theorem flag_setFlag (f g : Flag) (b : Bool) (s : State) :
    (s.setFlag f b).flag g = if g = f then b else s.flag g := by
  simp [State.flag, State.setFlag, getFlag_putFlag]

/-- Two STATUS bytes with the same flags are the same byte. -/
theorem status_ext (a b : Byte) (h : ∀ f, getFlag f a = getFlag f b) : a = b := by
  apply BitVec.eq_of_getLsbD_eq
  intro i hi
  have hC := h .C; have hZ := h .Z; have hI := h .I; have hD := h .D
  have hB := h .B; have hU := h .U; have hV := h .V; have hN := h .N
  simp only [getFlag, Flag.bit] at *
  match i, hi with
  | 0, _ => exact hC
  | 1, _ => exact hZ
  | 2, _ => exact hI
  | 3, _ => exact hD
  | 4, _ => exact hB
  | 5, _ => exact hU
  | 6, _ => exact hV
  | 7, _ => exact hN

/-! ### Combinators -/

theorem byteOf_toNat (r : Int) : ((byteOf r).toNat : Int) = r % 256 := by
  simp only [byteOf, BitVec.toNat_ofInt]
  have := Int.emod_nonneg r (b := 256) (by omega)
  norm_num
  omega

@[simp] theorem byteOf_natCast (v : Byte) : byteOf (v.toNat : Int) = v := by
  apply BitVec.eq_of_toNat_eq
  have h := byteOf_toNat (v.toNat : Int)
  have := v.isLt
  omega

@[simp] theorem zeroOf_natCast (v : Byte) : zeroOf (v.toNat : Int) = decide (v = 0) := by
  have := v.isLt
  have h : ((v.toNat : Int) % 256 = 0) ↔ v = 0 := by
    rw [← BitVec.toNat_inj]
    simp
    omega
  simp [zeroOf, h]

@[simp] theorem negativeOf_natCast (v : Byte) : negativeOf (v.toNat : Int) = v.getLsbD 7 := by
  simp [negativeOf]

/-- `carryAdd` of a sum of two bytes and a carry: the sum does not fit a byte (10_state.md R37). -/
theorem carryAdd_eq (r : Int) (h0 : 0 ≤ r) (h1 : r ≤ 511) : carryAdd r = decide (256 ≤ r) := by
  unfold carryAdd
  obtain ⟨n, rfl⟩ := Int.eq_ofNat_of_zero_le h0
  simp only [Int.toNat_natCast, Nat.testBit_eq_decide_div_mod_eq]
  congr 1
  apply propext
  constructor <;> intro h <;> omega

/-- `carrySub` of a difference of two bytes: no borrow (10_state.md R37). -/
theorem carrySub_eq (t : Int) (h0 : -256 ≤ t) (h1 : t ≤ 255) : carrySub t = decide (0 ≤ t) := by
  unfold carrySub
  rw [Nat.testBit_eq_decide_div_mod_eq, ← decide_not]
  congr 1
  apply propext
  constructor <;> intro h <;> omega

/-- Bit 7 of a byte is its upper half. -/
theorem bit7_eq (v : Byte) : v.getLsbD 7 = decide (128 ≤ v.toNat) := by
  rw [BitVec.getLsbD, Nat.testBit_eq_decide_div_mod_eq]
  have := v.isLt
  congr 1
  apply propext
  constructor <;> intro h <;> omega

theorem sext8_eq (v : Byte) : sext8 v = if 128 ≤ v.toNat then (v.toNat : Int) - 256 else v.toNat := by
  simp only [sext8, bit7_eq, decide_eq_true_eq]

theorem sext8_range (v : Byte) : -128 ≤ sext8 v ∧ sext8 v ≤ 127 := by
  have := v.isLt
  rw [sext8_eq]
  split <;> omega

/-- `overflow(a, b, r)` of a sum: the signed sum does not fit a signed byte (10_state.md R37). -/
theorem overflowOf_eq (a b : Byte) (c : Bool) :
    overflowOf a b ((a.toNat : Int) + b.toNat + bitInt c) =
      decide (¬ (-128 ≤ sext8 a + sext8 b + bitInt c ∧ sext8 a + sext8 b + bitInt c ≤ 127)) := by
  have ha := a.isLt
  have hb := b.isLt
  have hr := byteOf_toNat ((a.toNat : Int) + b.toNat + bitInt c)
  have hc : bitInt c = 0 ∨ bitInt c = 1 := by cases c <;> simp [bitInt]
  rw [Bool.eq_iff_iff, decide_eq_true_eq]
  simp only [overflowOf, bit7_eq, sext8_eq, Bool.and_eq_true, beq_iff_eq, bne_iff_ne, ne_eq, decide_eq_decide]
  split <;> split <;> omega

theorem getFlag_statusZN (f : Flag) (v st : Byte) :
    getFlag f (statusZN v st) =
      if f = .N then v.getLsbD 7 else if f = .Z then decide (v = 0) else getFlag f st := by
  simp [statusZN, getFlag_putFlag]

end Sys2Proof.Machine
end

