-- ==== Sys2Proof/Laws/Memory.lean ====
section
/-! SUPPORT. Byte stores: read after write, the canonical form, and that equal contents in that form are equal data. -/

namespace Sys2Proof.Machine

@[simp] theorem read_nil (a : Nat) : Memory.read [] a = Config.initByte := rfl

theorem read_cons (b : Nat) (v : Byte) (m : Memory) (a : Nat) :
    Memory.read ((b, v) :: m) a = if a = b then v else Memory.read m a := rfl

theorem wf_cons (a : Nat) (v : Byte) (m : Memory) :
    Memory.wf ((a, v) :: m) = true ↔ v ≠ Config.initByte ∧ (∀ e ∈ m, a < e.1) ∧ Memory.wf m = true := by
  simp [Memory.wf, and_assoc]

theorem within_cons (p : Nat → Bool) (e : Host.Cell) (m : Memory) :
    Memory.within p (e :: m) = true ↔ p e.1 = true ∧ Memory.within p m = true := by
  simp [Memory.within]

theorem mem_within (p : Nat → Bool) (m : Memory) (h : Memory.within p m = true) (e : Host.Cell) (he : e ∈ m) :
    p e.1 = true := by
  simp only [Memory.within, List.all_eq_true] at h
  exact h e he

/-- A cell that no entry names reads as the initial byte. -/
theorem read_unlisted (m : Memory) (a : Nat) (h : ∀ e ∈ m, e.1 ≠ a) : Memory.read m a = Config.initByte := by
  induction m with
  | nil => rfl
  | cons e m ih =>
    obtain ⟨b, v⟩ := e
    rw [read_cons, if_neg (fun hab => h (b, v) (by simp) hab.symm)]
    exact ih fun e he => h e (by simp [he])

theorem write_keys (m : Memory) (a : Nat) (v : Byte) (e : Host.Cell) (h : e ∈ Memory.write m a v) : e ∈ m ∨ e = (a, v) := by
  induction m with
  | nil =>
    simp only [Memory.write] at h
    split at h <;> simp_all
  | cons d m ih =>
    obtain ⟨b, w⟩ := d
    simp only [Memory.write] at h
    split at h
    · split at h
      · exact .inl h
      · rcases List.mem_cons.1 h with h | h
        · exact .inr h
        · exact .inl h
    · split at h
      · split at h
        · exact .inl (by simp [h])
        · rcases List.mem_cons.1 h with h | h
          · exact .inr h
          · exact .inl (by simp [h])
      · rcases List.mem_cons.1 h with h | h
        · exact .inl (by simp [h])
        · rcases ih h with h | h
          · exact .inl (by simp [h])
          · exact .inr h

/-- A write keeps the canonical form. -/
theorem wf_write (m : Memory) (a : Nat) (v : Byte) (h : Memory.wf m = true) : Memory.wf (Memory.write m a v) = true := by
  induction m with
  | nil => simp only [Memory.write]; split <;> simp_all [Memory.wf]
  | cons d m ih =>
    obtain ⟨b, w⟩ := d
    obtain ⟨hw, hb, hm⟩ := (wf_cons b w m).1 h
    simp only [Memory.write]
    split
    · rename_i hab
      split
      · exact h
      · refine (wf_cons _ _ _).2 ⟨‹_›, ?_, h⟩
        intro e he
        rcases List.mem_cons.1 he with rfl | he
        · exact hab
        · exact lt_trans hab (hb e he)
    · split
      · subst a
        split
        · exact hm
        · exact (wf_cons _ _ _).2 ⟨‹_›, hb, hm⟩
      · refine (wf_cons _ _ _).2 ⟨hw, ?_, ih hm⟩
        intro e he
        rcases write_keys m a v e he with he | rfl
        · exact hb e he
        · show b < a
          omega

/-- A write at an address of `p` keeps every listed address in `p`. -/
theorem within_write (p : Nat → Bool) (m : Memory) (a : Nat) (v : Byte) (ha : p a = true)
    (h : Memory.within p m = true) : Memory.within p (Memory.write m a v) = true := by
  simp only [Memory.within, List.all_eq_true] at *
  intro e he
  rcases write_keys m a v e he with he | rfl
  · exact h e he
  · exact ha

theorem read_write_other (m : Memory) (a b : Nat) (v : Byte) (hab : b ≠ a) :
    Memory.read (Memory.write m a v) b = Memory.read m b := by
  induction m with
  | nil => simp only [Memory.write]; split <;> simp [read_cons, hab]
  | cons d m ih =>
    obtain ⟨c, w⟩ := d
    simp only [Memory.write]
    split
    · split <;> simp [read_cons, hab]
    · split
      · subst c
        split <;> simp [read_cons, hab]
      · simp [read_cons, ih]

theorem read_write_same (m : Memory) (a : Nat) (v : Byte) (h : Memory.wf m = true) :
    Memory.read (Memory.write m a v) a = v := by
  induction m with
  | nil => simp only [Memory.write]; split <;> simp_all [read_cons]
  | cons d m ih =>
    obtain ⟨c, w⟩ := d
    obtain ⟨_, hc, hm⟩ := (wf_cons c w m).1 h
    simp only [Memory.write]
    split
    · rename_i hac
      split
      · rename_i hv
        rw [hv]
        apply read_unlisted
        intro e he
        rcases List.mem_cons.1 he with rfl | he
        · exact ne_of_gt hac
        · exact ne_of_gt (lt_trans hac (hc e he))
      · simp [read_cons]
    · split
      · subst c
        split
        · rename_i hv
          rw [hv]
          exact read_unlisted _ _ fun e he => ne_of_gt (hc e he)
        · simp [read_cons]
      · simp [read_cons, *]

theorem read_write (m : Memory) (a b : Nat) (v : Byte) (h : Memory.wf m = true) :
    Memory.read (Memory.write m a v) b = if b = a then v else Memory.read m b := by
  split
  · subst b; exact read_write_same m a v h
  · exact read_write_other m a b v ‹_›

/-! ### Blocks -/

theorem blockCells_keys (vs : List Byte) (a : Nat) (e : Host.Cell) (h : e ∈ blockCells a vs) :
    a ≤ e.1 ∧ e.1 < a + vs.length := by
  induction vs generalizing a with
  | nil => simp [blockCells] at h
  | cons v vs ih =>
    simp only [blockCells, List.length_cons] at *
    split at h
    · have := ih (a + 1) h
      omega
    · rcases List.mem_cons.1 h with rfl | h
      · simp
      · have := ih (a + 1) h
        omega

theorem wf_blockCells (vs : List Byte) (a : Nat) : Memory.wf (blockCells a vs) = true := by
  induction vs generalizing a with
  | nil => rfl
  | cons v vs ih =>
    simp only [blockCells]
    split
    · exact ih _
    · refine (wf_cons _ _ _).2 ⟨‹_›, fun e he => ?_, ih _⟩
      have := blockCells_keys vs (a + 1) e he
      omega

theorem read_blockCells (vs : List Byte) (a b : Nat) :
    Memory.read (blockCells a vs) b =
      if a ≤ b ∧ b < a + vs.length then vs.getD (b - a) Config.initByte else Config.initByte := by
  induction vs generalizing a with
  | nil => simp [blockCells]
  | cons v vs ih =>
    have hk : ∀ w, (if b = a then w else Memory.read (blockCells (a + 1) vs) b) =
        if a ≤ b ∧ b < a + (vs.length + 1) then (w :: vs).getD (b - a) Config.initByte else Config.initByte := by
      intro w
      rw [ih]
      by_cases hba : b = a
      · subst b; simp
      · rw [if_neg hba]
        by_cases h : a + 1 ≤ b ∧ b < a + 1 + vs.length
        · rw [if_pos h, if_pos (by omega)]
          obtain ⟨k, hk⟩ : ∃ k, b - a = k + 1 := ⟨b - a - 1, by omega⟩
          rw [hk, show b - (a + 1) = k by omega]
          simp
        · rw [if_neg h, if_neg (by omega)]
    simp only [blockCells, List.length_cons]
    split
    · rename_i hv
      rw [← hk v, hv]
      split
      · rename_i hba
        subst b
        exact read_unlisted _ _ fun e he => by have := blockCells_keys vs (a + 1) e he; omega
      · rfl
    · rw [read_cons, hk]

theorem read_append (m n : Memory) (a : Nat) :
    Memory.read (m ++ n) a = if ∃ e ∈ m, e.1 = a then Memory.read m a else Memory.read n a := by
  induction m with
  | nil => simp
  | cons d m ih =>
    obtain ⟨b, v⟩ := d
    simp only [List.cons_append, read_cons, ih]
    by_cases hab : a = b
    · subst b; simp
    · have : (b, v).1 ≠ a := fun h => hab h.symm
      simp [hab, this]

theorem wf_append (m n : Memory) (hm : Memory.wf m = true) (hn : Memory.wf n = true)
    (h : ∀ d ∈ m, ∀ e ∈ n, d.1 < e.1) : Memory.wf (m ++ n) = true := by
  induction m with
  | nil => exact hn
  | cons d m ih =>
    obtain ⟨b, v⟩ := d
    obtain ⟨hv, hb, hm⟩ := (wf_cons b v m).1 hm
    refine (wf_cons _ _ _).2 ⟨hv, fun e he => ?_, ih hm fun d hd => h d (by simp [hd])⟩
    rcases List.mem_append.1 he with he | he
    · exact hb e he
    · exact h (b, v) (by simp) e he

theorem wf_filter (p : Host.Cell → Bool) (m : Memory) (h : Memory.wf m = true) : Memory.wf (m.filter p) = true := by
  induction m with
  | nil => rfl
  | cons d m ih =>
    obtain ⟨b, v⟩ := d
    obtain ⟨hv, hb, hm⟩ := (wf_cons b v m).1 h
    rw [List.filter_cons]
    split
    · exact (wf_cons _ _ _).2 ⟨hv, fun e he => hb e (List.mem_filter.1 he).1, ih hm⟩
    · exact ih hm

theorem read_filter (p : Nat → Bool) (m : Memory) (a : Nat) (h : p a = true) :
    Memory.read (m.filter fun e => p e.1) a = Memory.read m a := by
  induction m with
  | nil => rfl
  | cons d m ih =>
    obtain ⟨b, v⟩ := d
    rw [List.filter_cons]
    split
    · simp [read_cons, ih]
    · rename_i hb
      have : a ≠ b := by rintro rfl; exact hb h
      simp [read_cons, this, ih]

/-- Writing a block keeps the canonical form. -/
theorem wf_writeBlock (m : Memory) (a : Nat) (vs : List Byte) (h : Memory.wf m = true) :
    Memory.wf (Memory.writeBlock m a vs) = true := by
  refine wf_append _ _ (wf_append _ _ (wf_filter _ _ h) (wf_blockCells _ _) ?_) (wf_filter _ _ h) ?_
  · intro d hd e he
    have h1 := (List.mem_filter.1 hd).2
    have h2 := blockCells_keys vs a e he
    simp only [decide_eq_true_eq] at h1
    omega
  · intro d hd e he
    have h2 := (List.mem_filter.1 he).2
    simp only [decide_eq_true_eq] at h2
    rcases List.mem_append.1 hd with hd | hd
    · have h1 := (List.mem_filter.1 hd).2
      simp only [decide_eq_true_eq] at h1
      omega
    · have h1 := blockCells_keys vs a d hd
      omega

theorem within_writeBlock (p : Nat → Bool) (m : Memory) (a : Nat) (vs : List Byte)
    (hp : ∀ b, a ≤ b → b < a + vs.length → p b = true) (h : Memory.within p m = true) :
    Memory.within p (Memory.writeBlock m a vs) = true := by
  simp only [Memory.within, Memory.writeBlock, List.all_eq_true, List.mem_append, List.mem_filter] at *
  rintro e ((⟨he, -⟩ | he) | ⟨he, -⟩)
  · exact h e he
  · have := blockCells_keys vs a e he
    exact hp _ this.1 this.2
  · exact h e he

/-- What a block write leaves at every address. -/
theorem read_writeBlock (m : Memory) (a : Nat) (vs : List Byte) (b : Nat) :
    Memory.read (Memory.writeBlock m a vs) b =
      if a ≤ b ∧ b < a + vs.length then vs.getD (b - a) Config.initByte else Memory.read m b := by
  unfold Memory.writeBlock
  by_cases hin : a ≤ b ∧ b < a + vs.length
  · rw [if_pos hin, read_append]
    have hlow : ∀ e ∈ m.filter (fun e => decide (e.1 < a)), e.1 ≠ b := by
      intro e he
      have := (List.mem_filter.1 he).2
      simp only [decide_eq_true_eq] at this
      omega
    have hhigh : Memory.read (m.filter fun e => decide (a + vs.length ≤ e.1)) b = Config.initByte := by
      apply read_unlisted
      intro e he
      have := (List.mem_filter.1 he).2
      simp only [decide_eq_true_eq] at this
      omega
    have hmid : Memory.read (m.filter (fun e => decide (e.1 < a)) ++ blockCells a vs) b =
        vs.getD (b - a) Config.initByte := by
      rw [read_append, if_neg (by rintro ⟨e, he, h⟩; exact hlow e he h), read_blockCells, if_pos hin]
    split
    · exact hmid
    · rename_i hno
      rw [hhigh, ← hmid]
      exact (read_unlisted _ _ fun e he h => hno ⟨e, he, h⟩).symm
  · rw [if_neg hin, read_append]
    have hmid : ∀ e ∈ blockCells a vs, e.1 ≠ b := by
      intro e he
      have := blockCells_keys vs a e he
      omega
    by_cases hlt : b < a
    · have hL : Memory.read (m.filter fun e => decide (e.1 < a)) b = Memory.read m b :=
        read_filter (fun x => decide (x < a)) m b (by simp [hlt])
      have hH : Memory.read (m.filter fun e => decide (a + vs.length ≤ e.1)) b = Config.initByte := by
        apply read_unlisted
        intro e he
        have := (List.mem_filter.1 he).2
        simp only [decide_eq_true_eq] at this
        omega
      rw [read_append]
      split
      · split
        · exact hL
        · rename_i hno
          rw [read_unlisted _ _ hmid, ← hL]
          exact (read_unlisted _ _ fun e he h => hno ⟨e, he, h⟩).symm
      · rename_i hno
        rw [hH, ← hL]
        exact (read_unlisted _ _ fun e he h => hno ⟨e, by simp [he], h⟩).symm
    · have hH : Memory.read (m.filter fun e => decide (a + vs.length ≤ e.1)) b = Memory.read m b :=
        read_filter (fun x => decide (a + vs.length ≤ x)) m b (by simp; omega)
      rw [if_neg, hH]
      rintro ⟨e, he, h⟩
      rcases List.mem_append.1 he with he | he
      · have := (List.mem_filter.1 he).2
        simp only [decide_eq_true_eq] at this
        omega
      · exact hmid e he h

end Sys2Proof.Machine
end

