-- ==== Sys2Proof/Laws/Topology.lean ====
section
/-! SUPPORT. The wiring of the buses: canonical addresses are their own, and where the ports are not. -/

namespace Sys2Proof.Machine

theorem canon_idem (a : Nat) : canon (canon a) = canon a := by
  unfold canon
  split
  · rw [if_pos (by omega)]; omega
  · split
    · rw [if_neg (by omega), if_pos (by omega)]; omega
    · rfl

theorem canon_le (a : Nat) (h : a ≤ 0xFFFF) : canon a ≤ 0xFFFF := by
  unfold canon
  split
  · omega
  · split <;> omega

theorem canon_ram (a : Nat) (h : a ≤ 0x07FF) : canon a = a := by
  unfold canon
  rw [if_pos (by omega)]
  omega

theorem canon_high (a : Nat) (h : 0x4000 ≤ a) : canon a = a := by
  unfold canon
  rw [if_neg (by omega), if_neg (by omega)]

theorem cpuCell_canon (a : Nat) (h : a ≤ 0xFFFF) : cpuCell (canon a) = true := by
  simp [cpuCell, canon_idem, canon_le a h]

theorem vcanon_idem (a : Nat) : vcanon (vcanon a) = vcanon a := by
  unfold vcanon backgroundFold
  split_ifs <;> omega

theorem vcanon_le (a : Nat) (h : a ≤ 0xFFFF) : vcanon a ≤ 0xFFFF := by
  unfold vcanon backgroundFold
  split_ifs <;> omega

theorem videoCell_vcanon (a : Nat) (h : a ≤ 0xFFFF) : videoCell (vcanon a) = true := by
  simp [videoCell, vcanon_idem, vcanon_le a h]

theorem portAt_eq_none (c : Nat) (h : c ≠ 0x4016 ∧ c ≠ 0x4017) : portAt c = none := by
  unfold portAt
  rw [if_neg h.1, if_neg h.2]

theorem portAt_eq_some (c : Nat) (p : Port) (h : portAt c = some p) : c = 0x4016 ∨ c = 0x4017 := by
  unfold portAt at h
  split at h
  · exact .inl ‹_›
  · split at h
    · exact .inr ‹_›
    · cases h

end Sys2Proof.Machine
end

