-- ==== Sys2Proof/Laws/Ops.lean ====
section
/-! SUPPORT. One equation per shared operation of Machine/Ops.lean, saying everything it can do. -/

namespace Sys2Proof.Machine

@[simp] theorem bind_ok {α β : Type} (a : α) (s : State) (k : α → State → Res β) : (Res.ok a s).bind k = k a s := rfl

@[simp] theorem bind_raise {α β : Type} (f : Fault) (s : State) (k : α → State → Res β) :
    (Res.raise f s : Res α).bind k = .raise f s := rfl

@[simp] theorem bind_raiseFault {α β : Type} (f : Fault) (s : State) (k : α → State → Res β) :
    (raiseFault f s : Res α).bind k = raiseFault f s := rfl

@[simp] theorem outcome_ok {α : Type} (a : α) (s : State) : (Res.ok a s).outcome = .next s := rfl

@[simp] theorem outcome_raiseFault {α : Type} (f : Fault) (s : State) : (raiseFault f s : Res α).outcome = .fault f := rfl

theorem bind_eq_ok {α β : Type} {r : Res α} {k : α → State → Res β} {b : β} {t : State} (h : r.bind k = .ok b t) :
    ∃ a s, r = .ok a s ∧ k a s = .ok b t := by
  cases r with
  | ok a s => exact ⟨a, s, rfl, h⟩
  | raise f s => cases h

theorem bind_eq_raise {α β : Type} {r : Res α} {k : α → State → Res β} {f : Fault} {t : State} (h : r.bind k = .raise f t) :
    r = .raise f t ∨ ∃ a s, r = .ok a s ∧ k a s = .raise f t := by
  cases r with
  | ok a s => exact .inr ⟨a, s, rfl, h⟩
  | raise g s => exact .inl (by cases h; rfl)

theorem outcome_eq_next {α : Type} {r : Res α} {t : State} (h : r.outcome = .next t) : ∃ a, r = .ok a t := by
  cases r with
  | ok a s => exact ⟨a, by cases h; rfl⟩
  | raise f s => cases h

theorem outcome_ne_refused {α : Type} (r : Res α) (q : Refusal) : r.outcome ≠ .refused q := by
  cases r <;> intro h <;> cases h

@[simp] theorem raiseFault_ne_ok {α : Type} (f : Fault) (s : State) (a : α) (t : State) : raiseFault f s ≠ Res.ok a t := by
  intro h; cases h

/-! ### The CPU bus -/

theorem memRead_eq (a : Int) (s : State) : memRead a s =
    if 0 ≤ a ∧ a ≤ 0xFFFF then .ok (busRead a.toNat s).1 (busRead a.toNat s).2
    else raiseFault (.addressOutOfRange a) s := rfl

theorem memRead_nat (n : Nat) (s : State) (h : n ≤ 0xFFFF) : memRead n s = .ok (busRead n s).1 (busRead n s).2 := by
  rw [memRead_eq, if_pos (by omega), Int.toNat_natCast]

theorem busRead_plain (a : Nat) (s : State) (h : portAt (canon a) = none) : busRead a s = (s.peek a, s) := by
  simp only [busRead, h]

theorem busRead_port (a : Nat) (p : Port) (s : State) (h : portAt (canon a) = some p) : busRead a s = padRead p s := by
  simp only [busRead, h]

theorem memRead_plain (n : Nat) (s : State) (h : n ≤ 0xFFFF) (hp : portAt (canon n) = none) :
    memRead n s = .ok (s.peek n) s := by
  rw [memRead_nat n s h, busRead_plain n s hp]

/-- A read of zero page or of the stack page returns the cell and changes nothing. -/
theorem memRead_ram (n : Nat) (s : State) (h : n ≤ 0x07FF) : memRead n s = .ok (s.cell n) s := by
  have hc := canon_ram n h
  rw [memRead_plain n s (by omega) (portAt_eq_none _ (by omega)), State.peek, hc]

/-- A read of the cartridge window returns the cell and changes nothing. -/
theorem memRead_cartridge (n : Nat) (s : State) (h : 0x8000 ≤ n) (h' : n ≤ 0xFFFF) : memRead n s = .ok (s.cell n) s := by
  have hc := canon_high n (by omega)
  rw [memRead_plain n s h' (portAt_eq_none _ (by omega)), State.peek, hc]

/-- The side effect of a write that is not turned away, by cell. -/
def portEffect (c : Nat) (v : Byte) (s : State) : State :=
  if c = 0x2004 then spritePortWrite v s
  else if c = 0x2006 then addrPortWrite v s
  else if c = 0x2007 then
    { s with video := Memory.write s.video (vcanon s.vaddrLatch) v, vaddrLatch := s.vaddrLatch + 1 }
  else
    match portAt c with
    | some p => padWrite p v s
    | none => s

theorem memWrite_eq (a : Int) (v : Byte) (s : State) : memWrite a v s =
    if 0 ≤ a ∧ a ≤ 0xFFFF then
      if canon a.toNat = 0x2007 ∧ 0xFFFF < s.vaddrLatch then raiseFault (.addressOutOfRange s.vaddrLatch) s
      else .ok () ((portEffect (canon a.toNat) v s).setCell (canon a.toNat) v)
    else raiseFault (.addressOutOfRange a) s := by
  unfold memWrite
  split
  · generalize canon a.toNat = c
    unfold portWrite portEffect
    by_cases h1 : c = 0x2004
    · simp [h1]
    · by_cases h2 : c = 0x2006
      · simp [h2]
      · by_cases h3 : c = 0x2007
        · simp only [h3, if_true, true_and, show ¬ (0x2007 = 0x2004) by decide, show ¬ (0x2007 = 0x2006) by decide, if_false,
            dataPortWrite, vmemWrite]
          by_cases hl : 0xFFFF < s.vaddrLatch
          · rw [if_neg (by omega), if_pos hl]; rfl
          · rw [if_pos (by omega), if_neg hl]; rfl
        · rw [if_neg h1, if_neg h2, if_neg h3, if_neg h1, if_neg h2, if_neg h3, if_neg (by omega)]
          cases portAt c <;> rfl
  · rfl

theorem memWrite_nat (n : Nat) (v : Byte) (s : State) (h : n ≤ 0xFFFF)
    (hl : canon n = 0x2007 → s.vaddrLatch ≤ 0xFFFF) :
    memWrite n v s = .ok () ((portEffect (canon n) v s).setCell (canon n) v) := by
  rw [memWrite_eq, if_pos (by omega), Int.toNat_natCast, if_neg]
  rintro ⟨h1, h2⟩
  have := hl h1
  omega

theorem memWrite_ram (n : Nat) (v : Byte) (s : State) (h : n ≤ 0x07FF) : memWrite n v s = .ok () (s.setCell n v) := by
  have hc := canon_ram n h
  rw [memWrite_nat n v s (by omega) (by omega), hc]
  unfold portEffect
  rw [if_neg (by omega), if_neg (by omega), if_neg (by omega), portAt_eq_none n (by omega)]

/-! What a write leaves alone, whatever the cell. -/

@[simp] theorem portEffect_acc (c : Nat) (v : Byte) (s : State) : (portEffect c v s).acc = s.acc := by
  unfold portEffect; split_ifs <;> (try simp); split <;> simp
@[simp] theorem portEffect_x (c : Nat) (v : Byte) (s : State) : (portEffect c v s).x = s.x := by
  unfold portEffect; split_ifs <;> (try simp); split <;> simp
@[simp] theorem portEffect_y (c : Nat) (v : Byte) (s : State) : (portEffect c v s).y = s.y := by
  unfold portEffect; split_ifs <;> (try simp); split <;> simp
@[simp] theorem portEffect_stk (c : Nat) (v : Byte) (s : State) : (portEffect c v s).stk = s.stk := by
  unfold portEffect; split_ifs <;> (try simp); split <;> simp
@[simp] theorem portEffect_pc (c : Nat) (v : Byte) (s : State) : (portEffect c v s).pc = s.pc := by
  unfold portEffect; split_ifs <;> (try simp); split <;> simp
@[simp] theorem portEffect_status (c : Nat) (v : Byte) (s : State) : (portEffect c v s).status = s.status := by
  unfold portEffect; split_ifs <;> (try simp); split <;> simp
@[simp] theorem portEffect_cyc (c : Nat) (v : Byte) (s : State) : (portEffect c v s).cyc = s.cyc := by
  unfold portEffect; split_ifs <;> (try simp); split <;> simp
@[simp] theorem portEffect_nmiInFlight (c : Nat) (v : Byte) (s : State) : (portEffect c v s).nmiInFlight = s.nmiInFlight := by
  unfold portEffect; split_ifs <;> (try simp); split <;> simp
@[simp] theorem portEffect_nmiCapturedSP (c : Nat) (v : Byte) (s : State) : (portEffect c v s).nmiCapturedSP = s.nmiCapturedSP := by
  unfold portEffect; split_ifs <;> (try simp); split <;> simp
@[simp] theorem portEffect_vblankCount (c : Nat) (v : Byte) (s : State) : (portEffect c v s).vblankCount = s.vblankCount := by
  unfold portEffect; split_ifs <;> (try simp); split <;> simp
@[simp] theorem portEffect_trace (c : Nat) (v : Byte) (s : State) : (portEffect c v s).trace = s.trace := by
  unfold portEffect; split_ifs <;> (try simp); split <;> simp
@[simp] theorem portEffect_prgBanks (c : Nat) (v : Byte) (s : State) : (portEffect c v s).prgBanks = s.prgBanks := by
  unfold portEffect; split_ifs <;> (try simp); split <;> simp
@[simp] theorem portEffect_chrBanks (c : Nat) (v : Byte) (s : State) : (portEffect c v s).chrBanks = s.chrBanks := by
  unfold portEffect; split_ifs <;> (try simp); split <;> simp
@[simp] theorem portEffect_fault (c : Nat) (v : Byte) (s : State) : (portEffect c v s).fault = s.fault := by
  unfold portEffect; split_ifs <;> (try simp); split <;> simp
@[simp] theorem portEffect_vblankCycles (c : Nat) (v : Byte) (s : State) : (portEffect c v s).vblankCycles = s.vblankCycles := by
  unfold portEffect; split_ifs <;> (try simp); split <;> simp
@[simp] theorem portEffect_buttonDraws (c : Nat) (v : Byte) (s : State) : (portEffect c v s).buttonDraws = s.buttonDraws := by
  unfold portEffect; split_ifs <;> (try simp); split <;> simp

theorem portEffect_cell (c : Nat) (v : Byte) (s : State) (d : Nat) (h : c = 0x2004 → d ≠ 0x2003) :
    (portEffect c v s).cell d = s.cell d := by
  unfold portEffect
  split_ifs with h1 h2 h3
  · exact read_write_other _ _ _ _ (h h1)
  · simp [State.cell]
  · rfl
  · split <;> simp [State.cell]

/-- Every cell other than the stored one keeps its byte, but for the sprite index that the sprite port moves
(20_memory.md R74, R75). -/
theorem memWrite_cell (a : Int) (v : Byte) (s t : State) (u : Unit) (h : memWrite a v s = .ok u t) (d : Nat)
    (hd : d ≠ canon a.toNat) (hs : canon a.toNat = 0x2004 → d ≠ 0x2003) : t.cell d = s.cell d := by
  rw [memWrite_eq] at h
  split_ifs at h
  · simp at h
  · cases h
    rw [State.cell, setCell_cpu, read_write_other _ _ _ _ hd]
    exact portEffect_cell _ v s d hs
  · simp at h

/-! ### The video bus -/

theorem vmemRead_nat (n : Nat) (s : State) (h : n ≤ 0xFFFF) : vmemRead n s = .ok (s.vpeek n) s := by
  unfold vmemRead
  rw [if_pos (by omega), Int.toNat_natCast]

theorem vmemWrite_nat (n : Nat) (v : Byte) (s : State) (h : n ≤ 0xFFFF) :
    vmemWrite n v s = .ok () { s with video := Memory.write s.video (vcanon n) v } := by
  unfold vmemWrite
  rw [if_pos (by omega), Int.toNat_natCast]

theorem vmem_off_the_bus (a : Int) (v : Byte) (s : State) (h : a < 0 ∨ 0xFFFF < a) :
    vmemRead a s = raiseFault (.addressOutOfRange a) s ∧ vmemWrite a v s = raiseFault (.addressOutOfRange a) s := by
  unfold vmemRead vmemWrite
  rw [if_neg (by omega), if_neg (by omega)]
  exact ⟨rfl, rfl⟩

/-! ### The stack -/

theorem push_eq (pc0 : Int) (v : Byte) (s : State) : push pc0 v s =
    if s.stk = 0 then raiseFault (.stackOverflow pc0) s
    else .ok () { s.setCell (0x0100 + s.stk.toNat) v with stk := s.stk - 1 } := by
  unfold push
  split
  · rfl
  · have := s.stk.isLt
    rw [show (0x0100 + (s.stk.toNat : Int)) = ((0x0100 + s.stk.toNat : Nat) : Int) by omega, memWrite_ram _ _ _ (by omega)]
    rfl

theorem pull_eq (pc0 : Int) (s : State) : pull pc0 s =
    if s.stk = 0xFF then raiseFault (.stackUnderflow pc0) s
    else .ok (s.cell (0x0100 + (s.stk + 1).toNat)) { s with stk := s.stk + 1 } := by
  unfold pull
  split
  · rfl
  · have := (s.stk + 1).isLt
    rw [show (0x0100 + ((s.stk + 1).toNat : Int)) = ((0x0100 + (s.stk + 1).toNat : Nat) : Int) by omega,
      memRead_ram _ _ (by omega)]
    rfl

/-- The state after two pushed bytes. -/
def pushed2 (hi lo : Byte) (s : State) : State :=
  { (s.setCell (0x0100 + s.stk.toNat) hi).setCell (0x0100 + (s.stk - 1).toNat) lo with stk := s.stk - 1 - 1 }

theorem pushAddress_eq (pc0 v : Int) (s : State) : pushAddress pc0 v s =
    if s.stk = 0 then raiseFault (.stackOverflow pc0) s
    else if s.stk = 1 then
      raiseFault (.stackOverflow pc0) { s.setCell (0x0100 + s.stk.toNat) (hiByte v) with stk := s.stk - 1 }
    else .ok () (pushed2 (hiByte v) (loByte v) s) := by
  unfold pushAddress
  rw [push_eq]
  split
  · rfl
  · have h1 : s.stk - 1 = 0 ↔ s.stk = 1 := sub_eq_zero
    simp only [bind_ok, push_eq, h1]
    split <;> rfl

theorem pullAddress_eq (pc0 : Int) (s : State) : pullAddress pc0 s =
    if s.stk = 0xFF then raiseFault (.stackUnderflow pc0) s
    else if s.stk = 0xFE then raiseFault (.stackUnderflow pc0) { s with stk := s.stk + 1 }
    else .ok (addressOf (s.cell (0x0100 + (s.stk + 1).toNat)) (s.cell (0x0100 + (s.stk + 1 + 1).toNat)))
      { s with stk := s.stk + 1 + 1 } := by
  unfold pullAddress
  rw [pull_eq]
  split
  · rfl
  · rw [bind_ok, pull_eq]
    by_cases h1 : s.stk = 0xFE
    · rw [if_pos h1, if_pos (by show s.stk + 1 = 0xFF; rw [h1]; rfl)]
      rfl
    · rw [if_neg h1, if_neg (by show ¬ s.stk + 1 = 0xFF; bv_omega)]
      rfl

/-! ### Interrupts -/

/-- The state after the three pushes of an interrupt entry and the flag updates, PC not yet loaded. -/
def interrupted (ret : Int) (setsB : Bool) (s : State) : State :=
  let s1 := { (pushed2 (hiByte ret) (loByte ret) s).setCell (0x0100 + (s.stk - 1 - 1).toNat) s.status with
    stk := s.stk - 1 - 1 - 1 }
  (if setsB then s1.setFlag .B true else s1).setFlag .I true

theorem enterInterrupt_ok (pc0 ret : Int) (setsB : Bool) (vector : Nat) (s : State) (hs : 3 ≤ s.stk.toNat)
    (hv : 0x8000 ≤ vector) (hv' : vector ≤ 0xFFFE) : enterInterrupt pc0 ret setsB vector s =
      .ok () { interrupted ret setsB s with pc := addressOf (s.cell vector) (s.cell (vector + 1)) } := by
  have h0 : s.stk ≠ 0 := by intro h; simp [h] at hs
  have h1 : s.stk ≠ 1 := by intro h; simp [h] at hs
  have h2 : s.stk - 1 - 1 ≠ 0 := by bv_omega
  unfold enterInterrupt
  rw [pushAddress_eq, if_neg h0, if_neg h1, bind_ok, push_eq, if_neg (by exact h2), bind_ok]
  have hcell : ∀ n : Nat, 0x8000 ≤ n → (interrupted ret setsB s).cell n = s.cell n := by
    intro n hn
    have := s.stk.isLt
    have := (s.stk - 1).isLt
    have := (s.stk - 1 - 1).isLt
    have : (interrupted ret setsB s).cpu = Memory.write (Memory.write (Memory.write s.cpu (0x0100 + s.stk.toNat) (hiByte ret))
      (0x0100 + (s.stk - 1).toNat) (loByte ret)) (0x0100 + (s.stk - 1 - 1).toNat) s.status := by
      cases setsB <;> rfl
    simp only [State.cell, this]
    rw [read_write_other _ _ _ _ (by omega), read_write_other _ _ _ _ (by omega), read_write_other _ _ _ _ (by omega)]
  show (memRead16 vector (interrupted ret setsB s)).bind _ = _
  unfold memRead16
  rw [memRead_cartridge _ _ hv (by omega), bind_ok, show (vector : Int) + 1 = ((vector + 1 : Nat) : Int) by omega,
    memRead_cartridge _ _ (by omega) (by omega), bind_ok, bind_ok, hcell _ hv, hcell _ (by omega)]

/-- With fewer than three free stack bytes the entry faults (48_stack_control.md R289, 60_exceptions.md R331). -/
theorem enterInterrupt_full (pc0 ret : Int) (setsB : Bool) (vector : Int) (s : State) (hs : s.stk.toNat < 3) :
    (enterInterrupt pc0 ret setsB vector s).outcome = .fault (.stackOverflow pc0) := by
  unfold enterInterrupt
  rw [pushAddress_eq]
  split
  · rfl
  · split
    · rfl
    · have h2 : s.stk - 1 - 1 = 0 := by bv_omega
      rw [bind_ok, push_eq, if_pos (by exact h2)]
      rfl

theorem returnFromInterrupt_ok (pc0 : Int) (s : State) (hs : s.stk.toNat ≤ 0xFC) : returnFromInterrupt pc0 s =
    .ok () { s with
      status := s.cell (0x0100 + (s.stk + 1).toNat)
      stk := s.stk + 1 + 1 + 1
      pc := addressOf (s.cell (0x0100 + (s.stk + 1 + 1).toNat)) (s.cell (0x0100 + (s.stk + 1 + 1 + 1).toNat)) } := by
  have h0 : s.stk ≠ 0xFF := by intro h; simp [h] at hs
  have h1 : s.stk + 1 ≠ 0xFF := by bv_omega
  have h2 : s.stk + 1 ≠ 0xFE := by bv_omega
  unfold returnFromInterrupt
  rw [pull_eq, if_neg h0, bind_ok, pullAddress_eq, if_neg (by exact h1), if_neg (by exact h2)]
  rfl

theorem returnFromInterrupt_empty (pc0 : Int) (s : State) (hs : 0xFC < s.stk.toNat) :
    (returnFromInterrupt pc0 s).outcome = .fault (.stackUnderflow pc0) := by
  unfold returnFromInterrupt
  rw [pull_eq]
  split
  · rfl
  · rw [bind_ok, pullAddress_eq]
    simp only
    split
    · rfl
    · split
      · rfl
      · exfalso; bv_omega

end Sys2Proof.Machine
end

