-- ==== Sys2Proof/Laws/Exec.lean ====
section
/-! SUPPORT. Every meaning is `runTick` over its mnemonic's effect, which access variants and operand forms each mnemonic has, and one
equation per case of the resolver. -/

namespace Sys2Proof.Machine

/-- The effect of a mnemonic. -/
def effectOf : Mnemonic → Effect
  | .LDA => effLda
  | .LDX => effLdx
  | .LDY => effLdy
  | .STA => effSta
  | .STX => effStx
  | .STY => effSty
  | .ADC => effAdc
  | .SBC => effSbc
  | .AND => effAnd
  | .ORA => effOra
  | .EOR => effEor
  | .BIT => effBit
  | .ASL => effAsl
  | .LSR => effLsr
  | .ROL => effRol
  | .ROR => effRor
  | .CMP => effCmp
  | .CPX => effCpx
  | .CPY => effCpy
  | .INC => effInc
  | .DEC => effDec
  | .INX => effInx
  | .INY => effIny
  | .DEX => effDex
  | .DEY => effDey
  | .BCC => effBcc
  | .BCS => effBcs
  | .BEQ => effBeq
  | .BNE => effBne
  | .BMI => effBmi
  | .BPL => effBpl
  | .BVC => effBvc
  | .BVS => effBvs
  | .PHA => effPha
  | .PHP => effPhp
  | .PLA => effPla
  | .PLP => effPlp
  | .JMP => effJmp
  | .JSR => effJsr
  | .RTS => effRts
  | .BRK => effBrk
  | .RTI => effRti
  | .CLC => effClc
  | .SEC => effSec
  | .CLI => effCli
  | .SEI => effSei
  | .CLD => effCld
  | .SED => effSed
  | .CLV => effClv
  | .TAX => effTax
  | .TAY => effTay
  | .TXA => effTxa
  | .TYA => effTya
  | .TSX => effTsx
  | .TXS => effTxs
  | .NOP => effNop

/-- exec is the tick of the instruction with its mnemonic's effect: the one lemma through which a statement about a mnemonic reaches
every constructor. -/
theorem exec_eq (i : Instr) (s : State) : exec i s = runTick i (effectOf i.entry.mnemonic) s := by
  cases i <;> rfl

theorem runTick_eq (i : Instr) (effect : Effect) (s : State) : runTick i effect s =
    ((resolve i.operand i.entry.access s).bind fun res s1 =>
      (effect { op := i.entry.opcode, pc0 := s.pc } res s1).bind fun taken s2 =>
      .ok () (account i.entry s.pc res.crossed taken s2)).outcome := rfl

/-- The one inversion of a meaning: the resolver answered, the effect answered, and the tick was accounted. -/
theorem exec_next {i : Instr} {s t : State} (h : exec i s = .next t) :
    ∃ res s1 taken s2, resolve i.operand i.entry.access s = .ok res s1 ∧
      effectOf i.entry.mnemonic { op := i.entry.opcode, pc0 := s.pc } res s1 = .ok taken s2 ∧
      t = account i.entry s.pc res.crossed taken s2 := by
  rw [exec_eq, runTick_eq] at h
  obtain ⟨u, h⟩ := outcome_eq_next h
  obtain ⟨res, s1, h1, h⟩ := bind_eq_ok h
  obtain ⟨taken, s2, h2, h⟩ := bind_eq_ok h
  cases h
  exact ⟨res, s1, taken, s2, h1, h2, rfl⟩

theorem exec_of_resolve {i : Instr} {s : State} {res : Addressing} {s1 : State}
    (h : resolve i.operand i.entry.access s = .ok res s1) : exec i s =
    ((effectOf i.entry.mnemonic { op := i.entry.opcode, pc0 := s.pc } res s1).bind fun taken s2 =>
      .ok () (account i.entry s.pc res.crossed taken s2)).outcome := by
  rw [exec_eq, runTick_eq, h, bind_ok]

/-! ### The resolver -/

@[simp] theorem resolve_implicit (access : Access) (s : State) : resolve .implicit access s =
    .ok { value := none, ea := none, acc := false, crossed := false } { s with pc := s.pc + 1 } := rfl

@[simp] theorem resolve_accumulator (access : Access) (s : State) : resolve .accumulator access s =
    .ok { value := some s.acc, ea := none, acc := true, crossed := false } { s with pc := s.pc + 1 } := rfl

@[simp] theorem resolve_immediate (b : Byte) (access : Access) (s : State) : resolve (.immediate b) access s =
    .ok { value := some b, ea := none, acc := false, crossed := false } { s with pc := s.pc + 2 } := rfl

@[simp] theorem resolve_relative (b : Byte) (access : Access) (s : State) : resolve (.relative b) access s =
    .ok { value := some b, ea := none, acc := false, crossed := false } { s with pc := s.pc + 2 } := rfl

/-- The meaning of an instruction with no operand. -/
theorem exec_implicit {i : Instr} (ho : i.operand = .implicit) (s : State) : exec i s =
    ((effectOf i.entry.mnemonic { op := i.entry.opcode, pc0 := s.pc } { value := none, ea := none, acc := false, crossed := false }
      { s with pc := s.pc + 1 }).bind fun taken s2 => .ok () (account i.entry s.pc false taken s2)).outcome := by
  have h := resolve_implicit i.entry.access s; rw [← ho] at h
  rw [exec_of_resolve h]

/-- Every mode with an effective address formed by `effectiveAddress` goes on with `fetchAt`. -/
theorem resolve_ea {o : Operand} {s : State} {ea : Nat} {crossed : Bool} (h : effectiveAddress o s = some (ea, crossed))
    (access : Access) : resolve o access s = fetchAt access ea crossed (s.advance o) := by
  cases o <;> first | (cases h; rfl) | simp [effectiveAddress] at h

theorem fetchAt_read (ea : Nat) (c : Bool) (s : State) (h : ea ≤ 0xFFFF) : fetchAt .read ea c s =
    .ok { value := some (busRead ea s).1, ea := some ea, acc := false, crossed := c } (busRead ea s).2 := by
  simp only [fetchAt, memRead_nat ea s h, bind_ok]

theorem fetchAt_rmw (ea : Nat) (c : Bool) (s : State) (h : ea ≤ 0xFFFF) : fetchAt .readModifyWrite ea c s =
    .ok { value := some (busRead ea s).1, ea := some ea, acc := false, crossed := c } (busRead ea s).2 := by
  simp only [fetchAt, memRead_nat ea s h, bind_ok]

@[simp] theorem fetchAt_addressOnly (ea : Nat) (c : Bool) (s : State) : fetchAt .addressOnly ea c s =
    .ok { value := none, ea := some ea, acc := false, crossed := c } s := rfl

/-- Advancing PC changes no effective address. -/
@[simp] theorem effectiveAddress_pc (o : Operand) (s : State) (n : Int) :
    effectiveAddress o { s with pc := n } = effectiveAddress o s := by
  cases o <;> rfl

/-! ### Operand forms by mnemonic (30_encoding.md R115) -/

/-- The mnemonics whose operand is read: an immediate byte or the byte at an effective address. -/
theorem read_form {i : Instr} (h : i.entry.mnemonic ∈ ([.LDA, .LDX, .LDY, .ADC, .SBC, .AND, .ORA, .EOR, .BIT, .CMP, .CPX, .CPY] : List Mnemonic)) (s : State) :
    i.entry.access = .read ∧ ((∃ b, i.operand = .immediate b) ∨ ∃ ea c, effectiveAddress i.operand s = some (ea, c)) := by
  cases i <;> first
    | exact ⟨rfl, .inl ⟨_, rfl⟩⟩
    | exact ⟨rfl, .inr ⟨_, _, rfl⟩⟩
    | exact absurd h (of_decide_eq_false rfl)

/-- The stores: an effective address that is not read. -/
theorem store_form {i : Instr} (h : i.entry.mnemonic ∈ ([.STA, .STX, .STY] : List Mnemonic)) (s : State) :
    i.entry.access = .addressOnly ∧ ∃ ea c, effectiveAddress i.operand s = some (ea, c) := by
  cases i <;> first
    | exact ⟨rfl, _, _, rfl⟩
    | exact absurd h (of_decide_eq_false rfl)

/-- The shifts: the accumulator, or a byte read and written at an effective address. -/
theorem shift_form {i : Instr} (h : i.entry.mnemonic ∈ ([.ASL, .LSR, .ROL, .ROR] : List Mnemonic)) (s : State) :
    i.operand = .accumulator ∨
      i.entry.access = .readModifyWrite ∧ ∃ ea c, effectiveAddress i.operand s = some (ea, c) := by
  cases i <;> first
    | exact .inl rfl
    | exact .inr ⟨rfl, _, _, rfl⟩
    | exact absurd h (of_decide_eq_false rfl)

/-- INC and DEC: a byte read and written at an effective address. -/
theorem step_form {i : Instr} (h : i.entry.mnemonic ∈ ([.INC, .DEC] : List Mnemonic)) (s : State) :
    i.entry.access = .readModifyWrite ∧ ∃ ea c, effectiveAddress i.operand s = some (ea, c) := by
  cases i <;> first
    | exact ⟨rfl, _, _, rfl⟩
    | exact absurd h (of_decide_eq_false rfl)

/-- The branches have the Relative mode. -/
theorem branch_form {i : Instr} (h : i.entry.mnemonic ∈ ([.BCC, .BCS, .BEQ, .BNE, .BMI, .BPL, .BVC, .BVS] : List Mnemonic)) :
    ∃ b, i.operand = .relative b := by
  cases i <;> first
    | exact ⟨_, rfl⟩
    | exact absurd h (of_decide_eq_false rfl)

/-- The mnemonics that have the Implicit mode only. -/
theorem implicit_form {i : Instr} (h : i.entry.mnemonic ∈ ([.INX, .INY, .DEX, .DEY, .PHA, .PHP, .PLA, .PLP, .RTS, .BRK, .RTI] ++
    [.CLC, .SEC, .CLI, .SEI, .CLD, .SED, .CLV, .TAX, .TAY, .TXA, .TYA, .TSX, .TXS, .NOP] : List Mnemonic)) :
    i.operand = .implicit := by
  cases i <;> first
    | rfl
    | exact absurd h (of_decide_eq_false rfl)

end Sys2Proof.Machine
end

