-- ==== Sys2Proof/Laws/Effects.lean ====
section
/-! SUPPORT. The arithmetic of the shared effects: sums, shifts, steps and the bytes of an address, as bit vectors. -/

namespace Sys2Proof.Machine

theorem overflowOf_decide (a b : Byte) (r : Int) : overflowOf a b r =
    decide (a.getLsbD 7 = b.getLsbD 7 ∧ (byteOf r).getLsbD 7 ≠ a.getLsbD 7) := by
  unfold overflowOf
  generalize a.getLsbD 7 = x
  generalize b.getLsbD 7 = y
  generalize (byteOf r).getLsbD 7 = z
  cases x <;> cases y <;> cases z <;> rfl

theorem bitInt_eq (b : Bool) : bitInt b = if b then 1 else 0 := by cases b <;> rfl

theorem toNat_not (m : Byte) : (~~~m).toNat = 255 - m.toNat := by
  simp [BitVec.toNat_not]

theorem byteOf_double (v : Byte) : byteOf (2 * (v.toNat : Int)) = v <<< 1 := by
  apply BitVec.eq_of_toNat_eq
  have h := byteOf_toNat (2 * (v.toNat : Int))
  rw [BitVec.toNat_shiftLeft, Nat.shiftLeft_eq]
  omega

theorem carry_double (v : Byte) : carryAdd (2 * (v.toNat : Int)) = v.getLsbD 7 := by
  have := v.isLt
  rw [carryAdd_eq _ (by omega) (by omega), bit7_eq, decide_eq_decide]
  omega

theorem aslKind_eq (v : Byte) (c : Bool) : aslKind v c = (v <<< 1, v.getLsbD 7) := by
  simp only [aslKind, byteOf_double, carry_double]

theorem rolKind_eq (v : Byte) (c : Bool) : rolKind v c = ((v <<< 1) ||| (if c then 1 else 0), v.getLsbD 7) := by
  have hv := v.isLt
  simp only [rolKind, Prod.mk.injEq]
  constructor
  · cases c
    · simp [bitInt, byteOf_double]
    · have h1 : (v <<< 1) ||| (1 : Byte) = (v <<< 1) + 1 := by
        rw [BitVec.add_eq_or_of_and_eq_zero]
        apply BitVec.eq_of_getLsbD_eq
        intro j hj
        rw [BitVec.getLsbD_and, BitVec.getLsbD_shiftLeft]
        rcases j with _ | j
        · simp
        · simp
      simp only [if_true, h1]
      apply BitVec.eq_of_toNat_eq
      have h := byteOf_toNat (2 * (v.toNat : Int) + bitInt true)
      rw [BitVec.toNat_add, BitVec.toNat_shiftLeft, Nat.shiftLeft_eq]
      simp only [bitInt, if_true] at *
      simp
      omega
  · have hc : bitInt c = 0 ∨ bitInt c = 1 := by cases c <;> simp [bitInt]
    rw [carryAdd_eq _ (by omega) (by omega), bit7_eq, decide_eq_decide]
    omega

theorem rorKind_eq (v : Byte) (c : Bool) : rorKind v c = ((v >>> 1) ||| (if c then 0x80 else 0), v.getLsbD 0) := by
  have hv := v.isLt
  simp only [rorKind, Prod.mk.injEq]
  refine ⟨?_, rfl⟩
  cases c
  · have h := byteOf_natCast (v >>> 1)
    show byteOf (((v >>> 1).toNat : Int) + 128 * 0) = v >>> 1 ||| 0
    simpa using h
  · have h1 : (v >>> 1) ||| (0x80 : Byte) = (v >>> 1) + 0x80 := by
      rw [BitVec.add_eq_or_of_and_eq_zero]
      apply BitVec.eq_of_getLsbD_eq
      intro j hj
      rw [BitVec.getLsbD_and, BitVec.getLsbD_ushiftRight]
      by_cases h7 : j = 7
      · subst h7; simp
      · have : (0x80#8).getLsbD j = false := by
          have : j < 7 := by omega
          interval_cases j <;> decide
        simp [this]
    simp only [if_true, h1]
    apply BitVec.eq_of_toNat_eq
    have h2 : (v >>> 1).toNat = v.toNat / 2 := by simp [BitVec.toNat_ushiftRight, Nat.shiftRight_eq_div_pow]
    have h := byteOf_toNat (((v >>> 1).toNat : Int) + 128 * bitInt true)
    rw [BitVec.toNat_add, h2]
    rw [h2] at h
    have h3 : bitInt true = 1 := rfl
    have h4 : (0x80 : Byte).toNat = 128 := rfl
    rw [h3] at h
    rw [h3, h4]
    omega

theorem byteOf_succ (v : Byte) : byteOf ((v.toNat : Int) + 1) = v + 1 := by
  apply BitVec.eq_of_toNat_eq
  have h := byteOf_toNat ((v.toNat : Int) + 1)
  have h1 : (1 : Byte).toNat = 1 := rfl
  rw [BitVec.toNat_add, h1]; omega

theorem byteOf_pred (v : Byte) : byteOf ((v.toNat : Int) - 1) = v - 1 := by
  apply BitVec.eq_of_toNat_eq
  have h := byteOf_toNat ((v.toNat : Int) - 1)
  have h1 : (1 : Byte).toNat = 1 := rfl
  rw [BitVec.toNat_sub, h1]; omega

theorem stepByte_pred (v : Byte) : stepByte v (-1) = v - 1 := byteOf_pred v

theorem toNat_add_ofNat (v : Byte) (n : Nat) (h : v.toNat + n ≤ 0xFF) : (v + BitVec.ofNat 8 n).toNat = v.toNat + n := by
  rw [BitVec.toNat_add, BitVec.toNat_ofNat]; omega

theorem toNat_sub_ofNat (v : Byte) (n : Nat) (h : n ≤ v.toNat) : (v - BitVec.ofNat 8 n).toNat = v.toNat - n := by
  have := v.isLt
  rw [BitVec.toNat_sub, BitVec.toNat_ofNat]; omega

theorem toNat_succ_le {v : Byte} (h : v ≠ 0xFF) : v.toNat + 1 ≤ 0xFF := by
  have := v.isLt
  by_contra hc
  apply h; apply BitVec.eq_of_toNat_eq; show v.toNat = 255; omega

theorem addressOf_low_high (a : Addr) : addressOf (lowByte a) (highByte a) = a.toNat := by
  have := a.isLt
  simp [addressOf, lowByte, highByte, Nat.shiftRight_eq_div_pow]; omega

theorem addressOf_next (a : Addr) : addressOf (lowByte a + 1) (highByte a) = if a.toNat % 256 = 0xFF then a.toNat - 0xFF else a.toNat + 1 := by
  have := a.isLt
  simp [addressOf, lowByte, highByte, BitVec.toNat_add, Nat.shiftRight_eq_div_pow]
  split <;> omega

end Sys2Proof.Machine
end

