-- ==== Sys2Proof/Laws/Frame.lean ====
section
/-! SUPPORT. What each shared operation leaves alone when it completes: the accounting and driver state, and (for the resolver) every
register, flag and memory cell. -/

namespace Sys2Proof.Machine

/-- The accounting and driver state is the same. -/
structure Kept (s t : State) : Prop where
  cyc : t.cyc = s.cyc
  trace : t.trace = s.trace
  nmi : t.nmiInFlight = s.nmiInFlight
  cap : t.nmiCapturedSP = s.nmiCapturedSP
  vb : t.vblankCount = s.vblankCount
  prg : t.prgBanks = s.prgBanks
  chr : t.chrBanks = s.chrBanks
  fault : t.fault = s.fault
  vbc : t.vblankCycles = s.vblankCycles

theorem Kept.trans {a b c : State} (h1 : Kept a b) (h2 : Kept b c) : Kept a c := by
  constructor
  · rw [h2.cyc, h1.cyc]
  · rw [h2.trace, h1.trace]
  · rw [h2.nmi, h1.nmi]
  · rw [h2.cap, h1.cap]
  · rw [h2.vb, h1.vb]
  · rw [h2.prg, h1.prg]
  · rw [h2.chr, h1.chr]
  · rw [h2.fault, h1.fault]
  · rw [h2.vbc, h1.vbc]

theorem kept_busRead (a : Nat) (s : State) : Kept s (busRead a s).2 := by
  constructor <;> simp

theorem kept_memWrite {a : Int} {v : Byte} {s t : State} {u : Unit} (h : memWrite a v s = .ok u t) : Kept s t := by
  rw [memWrite_eq] at h
  split_ifs at h
  · simp at h
  · cases h; constructor <;> simp
  · simp at h

theorem kept_memRead {a : Int} {v : Byte} {s t : State} (h : memRead a s = .ok v t) : Kept s t := by
  rw [memRead_eq] at h
  split_ifs at h
  · cases h; exact kept_busRead _ _
  · simp at h

theorem kept_push {p : Int} {v : Byte} {s t : State} {u : Unit} (h : push p v s = .ok u t) : Kept s t := by
  rw [push_eq] at h
  split_ifs at h
  · simp at h
  · cases h; constructor <;> rfl

theorem kept_pull {p : Int} {v : Byte} {s t : State} (h : pull p s = .ok v t) : Kept s t := by
  rw [pull_eq] at h
  split_ifs at h
  · simp at h
  · cases h; constructor <;> rfl

theorem kept_resolve {o : Operand} {acc : Access} {s s1 : State} {res : Addressing} (h : resolve o acc s = .ok res s1) : Kept s s1 := by
  have hadv : Kept s (s.advance o) := by constructor <;> rfl
  have hf : ∀ ea c, fetchAt acc ea c (s.advance o) = .ok res s1 → Kept s s1 := by
    intro ea c h
    cases acc <;> simp only [fetchAt] at h
    all_goals first
      | (obtain ⟨v, t, h1, h⟩ := bind_eq_ok h; cases h; exact hadv.trans (kept_memRead h1))
      | (cases h; exact hadv)
  cases o
  case indirect a =>
    obtain ⟨lo, t, h1, h⟩ := bind_eq_ok h
    obtain ⟨hi, t2, h2, h⟩ := bind_eq_ok h
    cases h
    exact (hadv.trans (kept_memRead h1)).trans (kept_memRead h2)
  all_goals first
    | exact hf _ _ h
    | (cases h; exact hadv)

theorem kept_pushAddress {p v : Int} {s t : State} {u : Unit} (h : pushAddress p v s = .ok u t) : Kept s t := by
  obtain ⟨_, t1, h1, h⟩ := bind_eq_ok h
  exact (kept_push h1).trans (kept_push h)

theorem kept_pullAddress {p : Int} {s t : State} {u : Nat} (h : pullAddress p s = .ok u t) : Kept s t := by
  obtain ⟨_, t1, h1, h⟩ := bind_eq_ok h
  obtain ⟨_, t2, h2, h⟩ := bind_eq_ok h
  cases h
  exact (kept_pull h1).trans (kept_pull h2)

theorem kept_enter {p r v : Int} {b : Bool} {s t : State} {u : Unit} (h : enterInterrupt p r b v s = .ok u t) : Kept s t := by
  obtain ⟨_, t1, h1, h⟩ := bind_eq_ok h
  obtain ⟨_, t2, h2, h⟩ := bind_eq_ok h
  obtain ⟨_, t3, h3, h⟩ := bind_eq_ok h
  cases h
  obtain ⟨_, t4, h4, h3⟩ := bind_eq_ok h3
  obtain ⟨_, t5, h5, h3⟩ := bind_eq_ok h3
  cases h3
  have hm : Kept t2 ((if b then t2.setFlag .B true else t2).setFlag .I true) := by cases b <;> constructor <;> rfl
  have := (((kept_pushAddress h1).trans (kept_push h2)).trans hm).trans ((kept_memRead h4).trans (kept_memRead h5))
  exact this.trans (by constructor <;> rfl)

/-- Registers, STATUS and memory are the same. -/
structure Regs (s t : State) : Prop where
  acc : t.acc = s.acc
  x : t.x = s.x
  y : t.y = s.y
  stk : t.stk = s.stk
  status : t.status = s.status
  cpu : t.cpu = s.cpu
  video : t.video = s.video
  sprite : t.sprite = s.sprite
  latch : t.vaddrLatch = s.vaddrLatch
  toggle : t.vaddrToggle = s.vaddrToggle

theorem Regs.trans {a b c : State} (h1 : Regs a b) (h2 : Regs b c) : Regs a c := by
  constructor
  · rw [h2.acc, h1.acc]
  · rw [h2.x, h1.x]
  · rw [h2.y, h1.y]
  · rw [h2.stk, h1.stk]
  · rw [h2.status, h1.status]
  · rw [h2.cpu, h1.cpu]
  · rw [h2.video, h1.video]
  · rw [h2.sprite, h1.sprite]
  · rw [h2.latch, h1.latch]
  · rw [h2.toggle, h1.toggle]

theorem regs_memRead {a : Int} {v : Byte} {s t : State} (h : memRead a s = .ok v t) : Regs s t := by
  rw [memRead_eq] at h
  split_ifs at h
  · cases h; constructor <;> simp
  · simp at h

theorem regs_resolve {o : Operand} {acc : Access} {s s1 : State} {res : Addressing} (h : resolve o acc s = .ok res s1) : Regs s s1 := by
  have hadv : Regs s (s.advance o) := by constructor <;> rfl
  have hf : ∀ ea c, fetchAt acc ea c (s.advance o) = .ok res s1 → Regs s s1 := by
    intro ea c h
    cases acc <;> simp only [fetchAt] at h
    all_goals first
      | (obtain ⟨v, t, h1, h⟩ := bind_eq_ok h; cases h; exact hadv.trans (regs_memRead h1))
      | (cases h; exact hadv)
  cases o
  case indirect a =>
    obtain ⟨lo, t, h1, h⟩ := bind_eq_ok h
    obtain ⟨hi, t2, h2, h⟩ := bind_eq_ok h
    cases h
    exact (hadv.trans (regs_memRead h1)).trans (regs_memRead h2)
  all_goals first
    | exact hf _ _ h
    | (cases h; exact hadv)

/-! ### An effect that consumes a value or an address and completes had one -/

theorem withValue_ok {α : Type} {site : Site} {res : Addressing} {s t : State} {k : Byte → Res α} {a : α} (h : withValue site res s k = .ok a t) :
    ∃ v, res.value = some v ∧ k v = .ok a t := by
  unfold withValue at h
  split at h
  · exact ⟨_, by assumption, h⟩
  · simp at h

theorem withEa_ok {α : Type} {site : Site} {res : Addressing} {s t : State} {k : Nat → Res α} {a : α} (h : withEa site res s k = .ok a t) :
    ∃ v, res.ea = some v ∧ k v = .ok a t := by
  unfold withEa at h
  split at h
  · exact ⟨_, by assumption, h⟩
  · simp at h

/-! ### What an operation can raise -/

theorem memRead_fault {a : Int} {s : State} {f : Fault} {t : State} (h : memRead a s = .raise f t) : (f = .addressOutOfRange a ∧ (a < 0 ∨ 0xFFFF < a)) := by
  rw [memRead_eq] at h
  split_ifs at h
  · cases h; exact ⟨rfl, by omega⟩

theorem memWrite_fault {a : Int} {v : Byte} {s : State} {f : Fault} {t : State} (h : memWrite a v s = .raise f t) : ∃ a : Int, f = .addressOutOfRange a ∧ (a < 0 ∨ 0xFFFF < a) := by
  rw [memWrite_eq] at h
  split_ifs at h
  · cases h; exact ⟨_, rfl, by omega⟩
  · cases h; exact ⟨_, rfl, by omega⟩

theorem push_fault {p : Int} {v : Byte} {s : State} {f : Fault} {t : State} (h : push p v s = .raise f t) : f = .stackOverflow p := by
  rw [push_eq] at h
  split_ifs at h
  · cases h; rfl

theorem pull_fault {p : Int} {s : State} {f : Fault} {t : State} (h : pull p s = .raise f t) : f = .stackUnderflow p := by
  rw [pull_eq] at h
  split_ifs at h
  · cases h; rfl

theorem pushAddress_fault {p v : Int} {s : State} {f : Fault} {t : State} (h : pushAddress p v s = .raise f t) : f = .stackOverflow p := by
  rcases bind_eq_raise h with h | ⟨_, _, _, h⟩ <;> exact push_fault h

theorem pullAddress_fault {p : Int} {s : State} {f : Fault} {t : State} (h : pullAddress p s = .raise f t) : f = .stackUnderflow p := by
  rcases bind_eq_raise h with h | ⟨_, _, _, h⟩
  · exact pull_fault h
  · rcases bind_eq_raise h with h | ⟨_, _, _, h⟩
    · exact pull_fault h
    · cases h

/-! ### PC -/

theorem pc_memRead {a : Int} {v : Byte} {s t : State} (h : memRead a s = .ok v t) : t.pc = s.pc ∧ 0 ≤ a ∧ a ≤ 0xFFFF := by
    rw [memRead_eq] at h
    split_ifs at h
    · cases h; simp; assumption
    · simp at h

theorem pc_memWrite {a : Int} {v : Byte} {s t : State} {u : Unit} (h : memWrite a v s = .ok u t) : t.pc = s.pc := by
    rw [memWrite_eq] at h
    split_ifs at h
    · simp at h
    · cases h; simp
    · simp at h

theorem pc_push {p : Int} {v : Byte} {s t : State} {u : Unit} (h : push p v s = .ok u t) : t.pc = s.pc := by
    rw [push_eq] at h
    split_ifs at h
    · simp at h
    · cases h; simp

theorem pc_pull {p : Int} {v : Byte} {s t : State} (h : pull p s = .ok v t) : t.pc = s.pc := by
    rw [pull_eq] at h
    split_ifs at h
    · simp at h
    · cases h; simp

theorem addressOf_le (lo hi : Byte) : addressOf lo hi ≤ 0xFFFF := by
  have := lo.isLt; have := hi.isLt; unfold addressOf; omega

theorem pc_resolve {o : Operand} {ac : Access} {s t : State} {res : Addressing} (h : resolve o ac s = .ok res t) : t.pc = s.pc + o.mode.length := by
    have hf : ∀ ea c, fetchAt ac ea c (s.advance o) = .ok res t → t.pc = s.pc + o.mode.length := by
      intro ea c h
      cases ac <;> simp only [fetchAt] at h
      all_goals first
        | (obtain ⟨v, t, h1, h⟩ := bind_eq_ok h; cases h; exact (pc_memRead h1).1)
        | (cases h; rfl)
    cases o
    case indirect a =>
      obtain ⟨lo, t, h1, h⟩ := bind_eq_ok h
      obtain ⟨hi, t2, h2, h⟩ := bind_eq_ok h
      cases h
      exact (pc_memRead h2).1.trans (pc_memRead h1).1
    all_goals first
      | exact hf _ _ h
      | (cases h; rfl)

/-! ### The controller ports -/

/-- The controller ports and the count of draws are the same. -/
structure PortsKept (s t : State) : Prop where
  one : t.padOne = s.padOne
  two : t.padTwo = s.padTwo
  draws : t.buttonDraws = s.buttonDraws

theorem PortsKept.trans {a b c : State} (h1 : PortsKept a b) (h2 : PortsKept b c) : PortsKept a c :=
  ⟨h2.one.trans h1.one, h2.two.trans h1.two, h2.draws.trans h1.draws⟩

theorem PortsKept.pad {s t : State} (h : PortsKept s t) (p : Port) : t.pad p = s.pad p := by
  cases p
  · exact h.one
  · exact h.two

/-- A read moves only the controller port it is at, and draws a button only at a port. -/
theorem ports_memRead {a : Int} {v : Byte} {s t : State} (h : memRead a s = .ok v t) :
    (portAt (canon a.toNat) = none → PortsKept s t) ∧ ∀ p, portAt (canon a.toNat) ≠ some p → t.pad p = s.pad p := by
  rw [memRead_eq] at h
  split_ifs at h
  · cases h
    cases hq : portAt (canon a.toNat) with
    | none => rw [busRead_plain _ _ hq]; exact ⟨fun _ => ⟨rfl, rfl, rfl⟩, fun _ _ => rfl⟩
    | some q =>
      rw [busRead_port _ _ _ hq]
      refine ⟨fun h => (by cases h), fun p hp => ?_⟩
      have hpq : p ≠ q := fun e => hp (by rw [e])
      cases p <;> cases q <;> first | rfl | exact absurd rfl hpq
  · simp at h

/-- A write changes only the controller port it is at, and draws no button. -/
theorem ports_memWrite {a : Int} {v : Byte} {s t : State} {u : Unit} (h : memWrite a v s = .ok u t) :
    t.buttonDraws = s.buttonDraws ∧ ∀ p, portAt (canon a.toNat) ≠ some p → t.pad p = s.pad p := by
  rw [memWrite_eq] at h
  split_ifs at h
  · simp at h
  · cases h
    refine ⟨by simp, fun p hp => ?_⟩
    have : ((portEffect (canon a.toNat) v s).setCell (canon a.toNat) v).pad p = (portEffect (canon a.toNat) v s).pad p := by
      cases p <;> rfl
    rw [this]
    unfold portEffect
    split_ifs
    · cases p <;> rfl
    · unfold addrPortWrite; split <;> cases p <;> rfl
    · cases p <;> rfl
    · split
      · rename_i q hq
        exact pad_setPad_other _ q p _ (fun e => hp (by rw [hq, e]))
      · rfl
  · simp at h

theorem ports_push {p : Int} {v : Byte} {s t : State} {u : Unit} (h : push p v s = .ok u t) : PortsKept s t := by
  rw [push_eq] at h
  split_ifs at h
  · simp at h
  · cases h; constructor <;> rfl

theorem ports_pull {p : Int} {v : Byte} {s t : State} (h : pull p s = .ok v t) : PortsKept s t := by
  rw [pull_eq] at h
  split_ifs at h
  · simp at h
  · cases h; constructor <;> rfl

theorem ports_pushAddress {p v : Int} {s t : State} {u : Unit} (h : pushAddress p v s = .ok u t) : PortsKept s t := by
  obtain ⟨_, t1, h1, h⟩ := bind_eq_ok h
  exact (ports_push h1).trans (ports_push h)

theorem ports_pullAddress {p : Int} {s t : State} {u : Nat} (h : pullAddress p s = .ok u t) : PortsKept s t := by
  obtain ⟨_, t1, h1, h⟩ := bind_eq_ok h
  obtain ⟨_, t2, h2, h⟩ := bind_eq_ok h
  cases h
  exact (ports_pull h1).trans (ports_pull h2)

theorem ports_enter {p r : Int} {n : Nat} {b : Bool} {s t : State} {u : Unit} (hn : 0x8000 ≤ n)
    (h : enterInterrupt p r b n s = .ok u t) : PortsKept s t := by
  obtain ⟨_, t1, h1, h⟩ := bind_eq_ok h
  obtain ⟨_, t2, h2, h⟩ := bind_eq_ok h
  obtain ⟨_, t3, h3, h⟩ := bind_eq_ok h
  cases h
  obtain ⟨_, t4, h4, h3⟩ := bind_eq_ok h3
  obtain ⟨_, t5, h5, h3⟩ := bind_eq_ok h3
  cases h3
  have hp : ∀ m : Nat, 0x8000 ≤ m → portAt (canon ((m : Int).toNat)) = none := by
    intro m hm
    have := canon_high m (by omega)
    exact portAt_eq_none _ (by rw [Int.toNat_natCast]; omega)
  have hm : PortsKept t2 ((if b then t2.setFlag .B true else t2).setFlag .I true) := by cases b <;> constructor <;> rfl
  have h45 := ((ports_memRead h4).1 (hp n hn)).trans ((ports_memRead h5).1 (hp (n + 1) (by omega)))
  exact (((ports_pushAddress h1).trans (ports_push h2)).trans hm).trans (h45.trans ⟨rfl, rfl, rfl⟩)

/-- The address a mode forms with `effectiveAddress` is the one it resolves to. -/
theorem resolve_effectiveAddress {o : Operand} {ac : Access} {s t : State} {res : Addressing} (h : resolve o ac s = .ok res t)
    {ea : Nat} (he : res.ea = some ea) : (∃ crossed, effectiveAddress o s = some (ea, crossed)) ∨ ∃ a, o = .indirect a := by
  have hf : ∀ n c, fetchAt ac n c (s.advance o) = .ok res t → n = ea := by
    intro n c h
    cases ac <;> simp only [fetchAt] at h
    all_goals first
      | (obtain ⟨v, t, h1, h⟩ := bind_eq_ok h; cases h; exact Option.some.inj he)
      | (cases h; exact Option.some.inj he)
  cases o
  case indirect a => exact .inr ⟨a, rfl⟩
  all_goals first
    | exact .inl ⟨_, by rw [← hf _ _ h]; rfl⟩
    | (cases h; cases he)

/-- Resolving an operand moves no controller port but those it reads at, and draws no button where it reads at none: it reads at the
effective address where the access variant reads, and at the two pointer bytes of Indirect. -/
theorem ports_resolve {o : Operand} {ac : Access} {s t : State} {res : Addressing} (h : resolve o ac s = .ok res t) :
    (∀ p, (∀ ea crossed, effectiveAddress o s = some (ea, crossed) → ac = .addressOnly ∨ ac = .none ∨ portAt (canon ea) ≠ some p) →
      (∀ a, o = .indirect a → portAt (canon (addressOf (lowByte a) (highByte a))) ≠ some p ∧
        portAt (canon (addressOf (lowByte a + 1) (highByte a))) ≠ some p) → t.pad p = s.pad p) ∧
    ((∀ ea crossed, effectiveAddress o s = some (ea, crossed) → ac = .addressOnly ∨ ac = .none ∨ portAt (canon ea) = none) →
      (∀ a, o = .indirect a → portAt (canon (addressOf (lowByte a) (highByte a))) = none ∧
        portAt (canon (addressOf (lowByte a + 1) (highByte a))) = none) → t.buttonDraws = s.buttonDraws) := by
  have hpad : ∀ (p : Port), (s.advance o).pad p = s.pad p := by intro p; cases p <;> rfl
  have hf : ∀ ea c, effectiveAddress o s = some (ea, c) → fetchAt ac ea c (s.advance o) = .ok res t →
      (∀ p, (ac = .addressOnly ∨ ac = .none ∨ portAt (canon ea) ≠ some p) → t.pad p = s.pad p) ∧
      ((ac = .addressOnly ∨ ac = .none ∨ portAt (canon ea) = none) → t.buttonDraws = s.buttonDraws) := by
    intro ea c _ h
    cases ac <;> simp only [fetchAt] at h
    case addressOnly | none => cases h; exact ⟨fun p _ => hpad p, fun _ => rfl⟩
    all_goals
      obtain ⟨v, u, h1, h⟩ := bind_eq_ok h
      cases h
      have hr := ports_memRead h1
      rw [Int.toNat_natCast] at hr
      exact ⟨fun p hp => (hr.2 p (by simpa using hp)).trans (hpad p), fun hn => (hr.1 (by simpa using hn)).draws⟩
  cases o
  case indirect a =>
    obtain ⟨lo, u, h1, h⟩ := bind_eq_ok h
    obtain ⟨hi, u', h2, h⟩ := bind_eq_ok h
    cases h
    have r1 := ports_memRead h1
    have r2 := ports_memRead h2
    rw [Int.toNat_natCast] at r1 r2
    exact ⟨fun p _ hp => ((r2.2 p (hp a rfl).2).trans (r1.2 p (hp a rfl).1)).trans (hpad p),
      fun _ hn => (r2.1 (hn a rfl).2).draws.trans (r1.1 (hn a rfl).1).draws⟩
  all_goals first
    | exact ⟨fun p hp _ => (hf _ _ rfl h).1 p (hp _ _ rfl), fun hn _ => (hf _ _ rfl h).2 (hn _ _ rfl)⟩
    | (cases h; exact ⟨fun p _ _ => hpad p, fun _ _ => rfl⟩)

end Sys2Proof.Machine
end

