-- ==== Sys2Proof/Laws/Invariant.lean ====
section
/-! SUPPORT. Every memory operation keeps the form of the byte stores and the rest of `State.Inv`; reset memory has it. -/

namespace Sys2Proof.Machine

/-- The memory of the machine after reset has the form. -/
theorem reset_memory_wf : State.reset.cpu.wf = true ∧ State.reset.video.wf = true ∧ State.reset.sprite.wf = true :=
  ⟨rfl, rfl, rfl⟩

/-- `Inv` reads nine fields. -/
theorem inv_of_eq {s t : State} (h : s.Inv) (h1 : t.cpu = s.cpu) (h2 : t.video = s.video) (h3 : t.sprite = s.sprite)
    (h4 : t.trace = s.trace) (h5 : t.vaddrLatch = s.vaddrLatch) (h6 : t.vaddrToggle = s.vaddrToggle)
    (h7 : t.prgBanks = s.prgBanks) (h8 : t.chrBanks = s.chrBanks) : t.Inv := by
  unfold State.Inv
  rw [h1, h2, h3, h4, h5, h6, h7, h8]
  exact h

theorem inv_setCell {s : State} (h : s.Inv) {c : Nat} (hc : cpuCell c = true) (v : Byte) : (s.setCell c v).Inv := by
  obtain ⟨h1, h2, hr⟩ := h
  exact ⟨wf_write _ _ _ h1, within_write _ _ _ _ hc h2, hr⟩

theorem inv_setPad {s : State} (h : s.Inv) (p : Port) (d : Pad) : (s.setPad p d).Inv := by
  cases p <;> exact h

theorem inv_spritePortWrite {s : State} (h : s.Inv) (v : Byte) : (spritePortWrite v s).Inv := by
  unfold spritePortWrite
  apply inv_setCell _ (by decide)
  obtain ⟨h1, h2, h3, h4, h5, h6, hr⟩ := h
  refine ⟨h1, h2, h3, h4, wf_write _ _ _ h5, within_write _ _ _ _ ?_ h6, hr⟩
  have := (s.cell 0x2003).isLt
  simp only [spriteCell, decide_eq_true_eq]
  omega

theorem inv_addrPortWrite {s : State} (h : s.Inv) (v : Byte) : (addrPortWrite v s).Inv := by
  obtain ⟨h1, h2, h3, h4, h5, h6, h7, ⟨h8, h9⟩, hr⟩ := h
  have := v.isLt
  unfold addrPortWrite
  split
  · rename_i ht
    have := h9 ht
    exact ⟨h1, h2, h3, h4, h5, h6, h7, ⟨by show _ - _ + _ ≤ _; omega, fun h => by cases h⟩, hr⟩
  · exact ⟨h1, h2, h3, h4, h5, h6, h7, ⟨by show _ + _ ≤ _; omega, fun _ => by show _ + _ ≤ _; omega⟩, hr⟩

/-- A video-memory write followed by the latch's increment, what the data port does. -/
theorem inv_dataPort {s : State} (h : s.Inv) (v : Byte) (hl : s.vaddrLatch ≤ 0xFFFF) :
    State.Inv { s with video := Memory.write s.video (vcanon s.vaddrLatch) v, vaddrLatch := s.vaddrLatch + 1 } := by
  obtain ⟨h1, h2, h3, h4, h5, h6, h7, ⟨h8, h9⟩, hr⟩ := h
  exact ⟨h1, h2, wf_write _ _ _ h3, within_write _ _ _ _ (videoCell_vcanon _ hl) h4, h5, h6, h7,
    ⟨by show _ + 1 ≤ _; omega, fun _ => by show _ + 1 ≤ _; omega⟩, hr⟩

theorem inv_vmemWrite {a : Int} {v : Byte} {s t : State} {u : Unit} (h : s.Inv) (hw : vmemWrite a v s = .ok u t) : t.Inv := by
  obtain ⟨h1, h2, h3, h4, hr⟩ := h
  unfold vmemWrite at hw
  split at hw
  · cases hw
    exact ⟨h1, h2, wf_write _ _ _ h3, within_write _ _ _ _ (videoCell_vcanon _ (by omega)) h4, hr⟩
  · simp at hw

theorem inv_memRead {a : Int} {v : Byte} {s t : State} (h : s.Inv) (hr : memRead a s = .ok v t) : t.Inv := by
  rw [memRead_eq] at hr
  split at hr
  · cases hr
    unfold busRead
    split
    · exact inv_setPad h _ _
    · exact h
  · simp at hr

theorem inv_memWrite {a : Int} {v : Byte} {s t : State} {u : Unit} (h : s.Inv) (hw : memWrite a v s = .ok u t) : t.Inv := by
  rw [memWrite_eq] at hw
  split at hw
  · split at hw
    · simp at hw
    · rename_i hl
      cases hw
      apply inv_setCell _ (cpuCell_canon _ (by omega))
      unfold portEffect
      split_ifs with h1 h2 h3
      · exact inv_spritePortWrite h v
      · exact inv_addrPortWrite h v
      · exact inv_dataPort h v (by rw [not_and] at hl; have := hl h3; omega)
      · split
        · exact inv_setPad h _ _
        · exact h
  · simp at hw

theorem cpuCell_stack (n : Nat) (h : n ≤ 0xFF) : cpuCell (0x0100 + n) = true := by
  have := cpuCell_canon (0x0100 + n) (by omega)
  rwa [canon_ram _ (by omega)] at this

theorem inv_push {pc0 : Int} {v : Byte} {s t : State} {u : Unit} (h : s.Inv) (hp : push pc0 v s = .ok u t) : t.Inv := by
  rw [push_eq] at hp
  split at hp
  · simp at hp
  · cases hp
    have := s.stk.isLt
    exact inv_of_eq (inv_setCell h (cpuCell_stack s.stk.toNat (by omega)) v) rfl rfl rfl rfl rfl rfl rfl rfl

theorem inv_pull {pc0 : Int} {v : Byte} {s t : State} (h : s.Inv) (hp : pull pc0 s = .ok v t) : t.Inv := by
  rw [pull_eq] at hp
  split at hp
  · simp at hp
  · cases hp
    exact h

end Sys2Proof.Machine
end

