-- ==== Sys2Proof/Laws/Load.lean ====
section
/-! SUPPORT. The banks that a load cuts out of an image. -/

namespace Sys2Proof.Machine

/-- The banks are the consecutive slices of the image (70_reset_and_hazards.md R366). -/
theorem imageBanks_eq (r : List Byte) (size : Nat) : ∀ n off,
    imageBanks r off size n = (List.range n).map fun j => (r.drop (off + size * j)).take size := by
  intro n
  induction n with
  | zero => intro off; rfl
  | succ n ih =>
    intro off
    rw [List.range_succ_eq_map, List.map_cons, imageBanks, ih]
    simp [Function.comp_def, Nat.mul_add, Nat.add_assoc, Nat.add_comm size]

@[simp] theorem length_imageBanks (r : List Byte) (off size n : Nat) : (imageBanks r off size n).length = n := by
  rw [imageBanks_eq, List.length_map, List.length_range]

/-- Where the image is long enough, every bank has its full size. -/
theorem length_of_mem_imageBanks (r : List Byte) (size : Nat) : ∀ n off, off + size * n ≤ r.length →
    ∀ b ∈ imageBanks r off size n, b.length = size := by
  intro n
  induction n with
  | zero => intro off _ b hb; cases hb
  | succ n ih =>
    intro off h b hb
    have hmul : size * (n + 1) = size * n + size := Nat.mul_succ size n
    rcases List.mem_cons.1 hb with rfl | hb
    · simp; omega
    · exact ih (off + size) (by omega) b hb

end Sys2Proof.Machine
end

