-- ==== Sys2Proof/Laws/PerInstr.lean ====
section
/-! SUPPORT. The per-instruction family DictRow (LAWS.json): each instruction's opcode looks up its own dictionary entry, whose mode
is the mode of the instruction's operand (30_encoding.md R111, R113). -/

namespace Sys2Proof.Laws.DictRow

/-- The opcode of `i` has an entry in the dictionary, it is `i`'s row, and its mode is the operand's. -/
def Statement (i : Instr) : Prop :=
  ∃ f, dict i.entry.opcode = some f ∧ f.entry = i.entry ∧ i.operand.mode = i.entry.mode

theorem ldaIndX (b : Byte) : Statement (.ldaIndX b) := ⟨_, rfl, rfl, rfl⟩
theorem ldaZp (b : Byte) : Statement (.ldaZp b) := ⟨_, rfl, rfl, rfl⟩
theorem ldaImm (b : Byte) : Statement (.ldaImm b) := ⟨_, rfl, rfl, rfl⟩
theorem ldaAbs (a : Addr) : Statement (.ldaAbs a) := ⟨_, rfl, rfl, rfl⟩
theorem ldaIndY (b : Byte) : Statement (.ldaIndY b) := ⟨_, rfl, rfl, rfl⟩
theorem ldaZpX (b : Byte) : Statement (.ldaZpX b) := ⟨_, rfl, rfl, rfl⟩
theorem ldaAbsY (a : Addr) : Statement (.ldaAbsY a) := ⟨_, rfl, rfl, rfl⟩
theorem ldaAbsX (a : Addr) : Statement (.ldaAbsX a) := ⟨_, rfl, rfl, rfl⟩
theorem ldxImm (b : Byte) : Statement (.ldxImm b) := ⟨_, rfl, rfl, rfl⟩
theorem ldxZp (b : Byte) : Statement (.ldxZp b) := ⟨_, rfl, rfl, rfl⟩
theorem ldxAbs (a : Addr) : Statement (.ldxAbs a) := ⟨_, rfl, rfl, rfl⟩
theorem ldxZpY (b : Byte) : Statement (.ldxZpY b) := ⟨_, rfl, rfl, rfl⟩
theorem ldxAbsY (a : Addr) : Statement (.ldxAbsY a) := ⟨_, rfl, rfl, rfl⟩
theorem ldyImm (b : Byte) : Statement (.ldyImm b) := ⟨_, rfl, rfl, rfl⟩
theorem ldyZp (b : Byte) : Statement (.ldyZp b) := ⟨_, rfl, rfl, rfl⟩
theorem ldyAbs (a : Addr) : Statement (.ldyAbs a) := ⟨_, rfl, rfl, rfl⟩
theorem ldyZpX (b : Byte) : Statement (.ldyZpX b) := ⟨_, rfl, rfl, rfl⟩
theorem ldyAbsX (a : Addr) : Statement (.ldyAbsX a) := ⟨_, rfl, rfl, rfl⟩
theorem staIndX (b : Byte) : Statement (.staIndX b) := ⟨_, rfl, rfl, rfl⟩
theorem staZp (b : Byte) : Statement (.staZp b) := ⟨_, rfl, rfl, rfl⟩
theorem staAbs (a : Addr) : Statement (.staAbs a) := ⟨_, rfl, rfl, rfl⟩
theorem staIndY (b : Byte) : Statement (.staIndY b) := ⟨_, rfl, rfl, rfl⟩
theorem staZpX (b : Byte) : Statement (.staZpX b) := ⟨_, rfl, rfl, rfl⟩
theorem staAbsY (a : Addr) : Statement (.staAbsY a) := ⟨_, rfl, rfl, rfl⟩
theorem staAbsX (a : Addr) : Statement (.staAbsX a) := ⟨_, rfl, rfl, rfl⟩
theorem stxZp (b : Byte) : Statement (.stxZp b) := ⟨_, rfl, rfl, rfl⟩
theorem stxAbs (a : Addr) : Statement (.stxAbs a) := ⟨_, rfl, rfl, rfl⟩
theorem stxZpY (b : Byte) : Statement (.stxZpY b) := ⟨_, rfl, rfl, rfl⟩
theorem styZp (b : Byte) : Statement (.styZp b) := ⟨_, rfl, rfl, rfl⟩
theorem styAbs (a : Addr) : Statement (.styAbs a) := ⟨_, rfl, rfl, rfl⟩
theorem styZpX (b : Byte) : Statement (.styZpX b) := ⟨_, rfl, rfl, rfl⟩
theorem adcIndX (b : Byte) : Statement (.adcIndX b) := ⟨_, rfl, rfl, rfl⟩
theorem adcZp (b : Byte) : Statement (.adcZp b) := ⟨_, rfl, rfl, rfl⟩
theorem adcImm (b : Byte) : Statement (.adcImm b) := ⟨_, rfl, rfl, rfl⟩
theorem adcAbs (a : Addr) : Statement (.adcAbs a) := ⟨_, rfl, rfl, rfl⟩
theorem adcIndY (b : Byte) : Statement (.adcIndY b) := ⟨_, rfl, rfl, rfl⟩
theorem adcZpX (b : Byte) : Statement (.adcZpX b) := ⟨_, rfl, rfl, rfl⟩
theorem adcAbsY (a : Addr) : Statement (.adcAbsY a) := ⟨_, rfl, rfl, rfl⟩
theorem adcAbsX (a : Addr) : Statement (.adcAbsX a) := ⟨_, rfl, rfl, rfl⟩
theorem sbcIndX (b : Byte) : Statement (.sbcIndX b) := ⟨_, rfl, rfl, rfl⟩
theorem sbcZp (b : Byte) : Statement (.sbcZp b) := ⟨_, rfl, rfl, rfl⟩
theorem sbcImm (b : Byte) : Statement (.sbcImm b) := ⟨_, rfl, rfl, rfl⟩
theorem sbcAbs (a : Addr) : Statement (.sbcAbs a) := ⟨_, rfl, rfl, rfl⟩
theorem sbcIndY (b : Byte) : Statement (.sbcIndY b) := ⟨_, rfl, rfl, rfl⟩
theorem sbcZpX (b : Byte) : Statement (.sbcZpX b) := ⟨_, rfl, rfl, rfl⟩
theorem sbcAbsY (a : Addr) : Statement (.sbcAbsY a) := ⟨_, rfl, rfl, rfl⟩
theorem sbcAbsX (a : Addr) : Statement (.sbcAbsX a) := ⟨_, rfl, rfl, rfl⟩
theorem andIndX (b : Byte) : Statement (.andIndX b) := ⟨_, rfl, rfl, rfl⟩
theorem andZp (b : Byte) : Statement (.andZp b) := ⟨_, rfl, rfl, rfl⟩
theorem andImm (b : Byte) : Statement (.andImm b) := ⟨_, rfl, rfl, rfl⟩
theorem andAbs (a : Addr) : Statement (.andAbs a) := ⟨_, rfl, rfl, rfl⟩
theorem andIndY (b : Byte) : Statement (.andIndY b) := ⟨_, rfl, rfl, rfl⟩
theorem andZpX (b : Byte) : Statement (.andZpX b) := ⟨_, rfl, rfl, rfl⟩
theorem andAbsY (a : Addr) : Statement (.andAbsY a) := ⟨_, rfl, rfl, rfl⟩
theorem andAbsX (a : Addr) : Statement (.andAbsX a) := ⟨_, rfl, rfl, rfl⟩
theorem oraIndX (b : Byte) : Statement (.oraIndX b) := ⟨_, rfl, rfl, rfl⟩
theorem oraZp (b : Byte) : Statement (.oraZp b) := ⟨_, rfl, rfl, rfl⟩
theorem oraImm (b : Byte) : Statement (.oraImm b) := ⟨_, rfl, rfl, rfl⟩
theorem oraAbs (a : Addr) : Statement (.oraAbs a) := ⟨_, rfl, rfl, rfl⟩
theorem oraIndY (b : Byte) : Statement (.oraIndY b) := ⟨_, rfl, rfl, rfl⟩
theorem oraZpX (b : Byte) : Statement (.oraZpX b) := ⟨_, rfl, rfl, rfl⟩
theorem oraAbsY (a : Addr) : Statement (.oraAbsY a) := ⟨_, rfl, rfl, rfl⟩
theorem oraAbsX (a : Addr) : Statement (.oraAbsX a) := ⟨_, rfl, rfl, rfl⟩
theorem eorIndX (b : Byte) : Statement (.eorIndX b) := ⟨_, rfl, rfl, rfl⟩
theorem eorZp (b : Byte) : Statement (.eorZp b) := ⟨_, rfl, rfl, rfl⟩
theorem eorImm (b : Byte) : Statement (.eorImm b) := ⟨_, rfl, rfl, rfl⟩
theorem eorAbs (a : Addr) : Statement (.eorAbs a) := ⟨_, rfl, rfl, rfl⟩
theorem eorIndY (b : Byte) : Statement (.eorIndY b) := ⟨_, rfl, rfl, rfl⟩
theorem eorZpX (b : Byte) : Statement (.eorZpX b) := ⟨_, rfl, rfl, rfl⟩
theorem eorAbsY (a : Addr) : Statement (.eorAbsY a) := ⟨_, rfl, rfl, rfl⟩
theorem eorAbsX (a : Addr) : Statement (.eorAbsX a) := ⟨_, rfl, rfl, rfl⟩
theorem bitZp (b : Byte) : Statement (.bitZp b) := ⟨_, rfl, rfl, rfl⟩
theorem bitAbs (a : Addr) : Statement (.bitAbs a) := ⟨_, rfl, rfl, rfl⟩
theorem aslZp (b : Byte) : Statement (.aslZp b) := ⟨_, rfl, rfl, rfl⟩
theorem aslAcc : Statement .aslAcc := ⟨_, rfl, rfl, rfl⟩
theorem aslAbs (a : Addr) : Statement (.aslAbs a) := ⟨_, rfl, rfl, rfl⟩
theorem aslZpX (b : Byte) : Statement (.aslZpX b) := ⟨_, rfl, rfl, rfl⟩
theorem aslAbsX (a : Addr) : Statement (.aslAbsX a) := ⟨_, rfl, rfl, rfl⟩
theorem lsrZp (b : Byte) : Statement (.lsrZp b) := ⟨_, rfl, rfl, rfl⟩
theorem lsrAcc : Statement .lsrAcc := ⟨_, rfl, rfl, rfl⟩
theorem lsrAbs (a : Addr) : Statement (.lsrAbs a) := ⟨_, rfl, rfl, rfl⟩
theorem lsrZpX (b : Byte) : Statement (.lsrZpX b) := ⟨_, rfl, rfl, rfl⟩
theorem lsrAbsX (a : Addr) : Statement (.lsrAbsX a) := ⟨_, rfl, rfl, rfl⟩
theorem rolZp (b : Byte) : Statement (.rolZp b) := ⟨_, rfl, rfl, rfl⟩
theorem rolAcc : Statement .rolAcc := ⟨_, rfl, rfl, rfl⟩
theorem rolAbs (a : Addr) : Statement (.rolAbs a) := ⟨_, rfl, rfl, rfl⟩
theorem rolZpX (b : Byte) : Statement (.rolZpX b) := ⟨_, rfl, rfl, rfl⟩
theorem rolAbsX (a : Addr) : Statement (.rolAbsX a) := ⟨_, rfl, rfl, rfl⟩
theorem rorZp (b : Byte) : Statement (.rorZp b) := ⟨_, rfl, rfl, rfl⟩
theorem rorAcc : Statement .rorAcc := ⟨_, rfl, rfl, rfl⟩
theorem rorAbs (a : Addr) : Statement (.rorAbs a) := ⟨_, rfl, rfl, rfl⟩
theorem rorZpX (b : Byte) : Statement (.rorZpX b) := ⟨_, rfl, rfl, rfl⟩
theorem rorAbsX (a : Addr) : Statement (.rorAbsX a) := ⟨_, rfl, rfl, rfl⟩
theorem cmpIndX (b : Byte) : Statement (.cmpIndX b) := ⟨_, rfl, rfl, rfl⟩
theorem cmpZp (b : Byte) : Statement (.cmpZp b) := ⟨_, rfl, rfl, rfl⟩
theorem cmpImm (b : Byte) : Statement (.cmpImm b) := ⟨_, rfl, rfl, rfl⟩
theorem cmpAbs (a : Addr) : Statement (.cmpAbs a) := ⟨_, rfl, rfl, rfl⟩
theorem cmpIndY (b : Byte) : Statement (.cmpIndY b) := ⟨_, rfl, rfl, rfl⟩
theorem cmpZpX (b : Byte) : Statement (.cmpZpX b) := ⟨_, rfl, rfl, rfl⟩
theorem cmpAbsY (a : Addr) : Statement (.cmpAbsY a) := ⟨_, rfl, rfl, rfl⟩
theorem cmpAbsX (a : Addr) : Statement (.cmpAbsX a) := ⟨_, rfl, rfl, rfl⟩
theorem cpxImm (b : Byte) : Statement (.cpxImm b) := ⟨_, rfl, rfl, rfl⟩
theorem cpxZp (b : Byte) : Statement (.cpxZp b) := ⟨_, rfl, rfl, rfl⟩
theorem cpxAbs (a : Addr) : Statement (.cpxAbs a) := ⟨_, rfl, rfl, rfl⟩
theorem cpyImm (b : Byte) : Statement (.cpyImm b) := ⟨_, rfl, rfl, rfl⟩
theorem cpyZp (b : Byte) : Statement (.cpyZp b) := ⟨_, rfl, rfl, rfl⟩
theorem cpyAbs (a : Addr) : Statement (.cpyAbs a) := ⟨_, rfl, rfl, rfl⟩
theorem incZp (b : Byte) : Statement (.incZp b) := ⟨_, rfl, rfl, rfl⟩
theorem incAbs (a : Addr) : Statement (.incAbs a) := ⟨_, rfl, rfl, rfl⟩
theorem incZpX (b : Byte) : Statement (.incZpX b) := ⟨_, rfl, rfl, rfl⟩
theorem incAbsX (a : Addr) : Statement (.incAbsX a) := ⟨_, rfl, rfl, rfl⟩
theorem decZp (b : Byte) : Statement (.decZp b) := ⟨_, rfl, rfl, rfl⟩
theorem decAbs (a : Addr) : Statement (.decAbs a) := ⟨_, rfl, rfl, rfl⟩
theorem decZpX (b : Byte) : Statement (.decZpX b) := ⟨_, rfl, rfl, rfl⟩
theorem decAbsX (a : Addr) : Statement (.decAbsX a) := ⟨_, rfl, rfl, rfl⟩
theorem inx : Statement .inx := ⟨_, rfl, rfl, rfl⟩
theorem iny : Statement .iny := ⟨_, rfl, rfl, rfl⟩
theorem dex : Statement .dex := ⟨_, rfl, rfl, rfl⟩
theorem dey : Statement .dey := ⟨_, rfl, rfl, rfl⟩
theorem bcc (b : Byte) : Statement (.bcc b) := ⟨_, rfl, rfl, rfl⟩
theorem bcs (b : Byte) : Statement (.bcs b) := ⟨_, rfl, rfl, rfl⟩
theorem beq (b : Byte) : Statement (.beq b) := ⟨_, rfl, rfl, rfl⟩
theorem bne (b : Byte) : Statement (.bne b) := ⟨_, rfl, rfl, rfl⟩
theorem bmi (b : Byte) : Statement (.bmi b) := ⟨_, rfl, rfl, rfl⟩
theorem bpl (b : Byte) : Statement (.bpl b) := ⟨_, rfl, rfl, rfl⟩
theorem bvc (b : Byte) : Statement (.bvc b) := ⟨_, rfl, rfl, rfl⟩
theorem bvs (b : Byte) : Statement (.bvs b) := ⟨_, rfl, rfl, rfl⟩
theorem pha : Statement .pha := ⟨_, rfl, rfl, rfl⟩
theorem php : Statement .php := ⟨_, rfl, rfl, rfl⟩
theorem pla : Statement .pla := ⟨_, rfl, rfl, rfl⟩
theorem plp : Statement .plp := ⟨_, rfl, rfl, rfl⟩
theorem jmpAbs (a : Addr) : Statement (.jmpAbs a) := ⟨_, rfl, rfl, rfl⟩
theorem jmpInd (a : Addr) : Statement (.jmpInd a) := ⟨_, rfl, rfl, rfl⟩
theorem jsr (a : Addr) : Statement (.jsr a) := ⟨_, rfl, rfl, rfl⟩
theorem rts : Statement .rts := ⟨_, rfl, rfl, rfl⟩
theorem brk : Statement .brk := ⟨_, rfl, rfl, rfl⟩
theorem rti : Statement .rti := ⟨_, rfl, rfl, rfl⟩
theorem clc : Statement .clc := ⟨_, rfl, rfl, rfl⟩
theorem sec : Statement .sec := ⟨_, rfl, rfl, rfl⟩
theorem cli : Statement .cli := ⟨_, rfl, rfl, rfl⟩
theorem sei : Statement .sei := ⟨_, rfl, rfl, rfl⟩
theorem cld : Statement .cld := ⟨_, rfl, rfl, rfl⟩
theorem sed : Statement .sed := ⟨_, rfl, rfl, rfl⟩
theorem clv : Statement .clv := ⟨_, rfl, rfl, rfl⟩
theorem tax : Statement .tax := ⟨_, rfl, rfl, rfl⟩
theorem tay : Statement .tay := ⟨_, rfl, rfl, rfl⟩
theorem txa : Statement .txa := ⟨_, rfl, rfl, rfl⟩
theorem tya : Statement .tya := ⟨_, rfl, rfl, rfl⟩
theorem tsx : Statement .tsx := ⟨_, rfl, rfl, rfl⟩
theorem txs : Statement .txs := ⟨_, rfl, rfl, rfl⟩
theorem nop : Statement .nop := ⟨_, rfl, rfl, rfl⟩

end Sys2Proof.Laws.DictRow
end

