-- ==== Sys2Proof/Tests/Slice0.lean ====
section
/-! SUPPORT. Tests of the model and witnesses of the obligations' hypotheses. Expected results are from 95_test_vectors.md (each test
names its vector) and from the table of 30_encoding.md R115. -/

namespace Sys2Proof.Tests

open Sys2Proof.Machine

/-! ### Helpers -/

/-- State.reset with PC at 0x8000 as the vectors take it. -/
def base : State := State.reset

/-- Put bytes in the cells of bus addresses, past any port. -/
def cells (cs : List (Nat × Byte)) (s : State) : State := cs.foldl (fun s c => s.setCell (canon c.1) c.2) s

/-- One step with these bytes at PC. -/
def run (s : State) (bytes : List Byte) : Host.Outcome State Fault Refusal := step (placeBytes s.pc bytes s)

/-- The outcome is a next state with property `p`. -/
def after (o : Host.Outcome State Fault Refusal) (p : State → Bool) : Bool :=
  match o with
  | .next t => p t
  | _ => false

/-- The outcome is this fault. -/
def faultsWith (o : Host.Outcome State Fault Refusal) (f : Fault) : Bool :=
  match o with
  | .fault g => g == f
  | _ => false

/-- An operation completed in a state with property `p`. -/
def done {α : Type} (r : Res α) (p : State → Bool) : Bool :=
  match r with
  | .ok _ t => p t
  | .raise _ _ => false

/-- Each word decodes to its instruction with nothing left over, and the instruction encodes to it. -/
def decodesTo (l : List (List Byte × Instr)) : Bool :=
  l.all fun e =>
    match decode e.1 with
    | .ok (i, []) => i == e.2 && encode e.2 == e.1
    | _ => false

/-- Each opcode has this base and extra cycle count. -/
def cyclesAre (l : List (Byte × Nat × Nat)) : Bool :=
  l.all fun e =>
    match dict e.1 with
    | some f => f.entry.base == e.2.1 && f.entry.extra == e.2.2
    | none => false

/-! ### Well-formedness: each check refuses an ill-formed term -/

theorem test_wf_accepts_a_memory : Memory.wf [(0x10, 0x01), (0x20, 0x02)] = true := by decide
theorem test_wf_refuses_falling_addresses : Memory.wf [(0x20, 0x02), (0x10, 0x01)] = false := by decide
theorem test_wf_refuses_a_repeated_address : Memory.wf [(0x10, 0x02), (0x10, 0x01)] = false := by decide
theorem test_wf_refuses_a_default_entry : Memory.wf [(0x10, 0x00)] = false := by decide
theorem test_within_refuses_a_ram_mirror : Memory.within cpuCell [(0x0800, 0x01)] = false := by decide
theorem test_within_refuses_past_the_cpu_bus : Memory.within cpuCell [(0x10000, 0x01)] = false := by decide
theorem test_within_refuses_a_nametable_mirror : Memory.within videoCell [(0x3000, 0x01)] = false := by decide
theorem test_within_refuses_past_the_video_bus : Memory.within videoCell [(0x10000, 0x01)] = false := by decide
theorem test_within_refuses_past_sprite_memory : Memory.within spriteCell [(0x100, 0x01)] = false := by decide
theorem test_params_accept_the_default : Params.default.wf = true := by decide
theorem test_params_refuse_a_reset_pc_past_the_bus : Params.wf { Params.default with resetPc := 0x10000 } = false := by decide
theorem test_params_refuse_bad_cpu_bytes : Params.wf { Params.default with cpuInit := [(0x0800, 0x01)] } = false := by decide
theorem test_params_refuse_bad_video_bytes : Params.wf { Params.default with videoInit := [(0x3F10, 0x01)] } = false := by decide
theorem test_params_refuse_bad_sprite_bytes : Params.wf { Params.default with spriteInit := [(0x100, 0x01)] } = false := by decide

/-! ### Decoding (30_encoding.md R112, R115): the words are the table's opcode bytes with the operand bytes 34, or 34 12 for 0x1234 -/

/-- 41_load_store.md, words of R115. -/
theorem test_decode_load_store :
  decodesTo [
    ([0x81, 0x34], .staIndX 0x34), ([0x84, 0x34], .styZp 0x34), ([0x85, 0x34], .staZp 0x34),
    ([0x86, 0x34], .stxZp 0x34), ([0x8C, 0x34, 0x12], .styAbs 0x1234), ([0x8D, 0x34, 0x12], .staAbs 0x1234),
    ([0x8E, 0x34, 0x12], .stxAbs 0x1234), ([0x91, 0x34], .staIndY 0x34), ([0x94, 0x34], .styZpX 0x34),
    ([0x95, 0x34], .staZpX 0x34), ([0x96, 0x34], .stxZpY 0x34), ([0x99, 0x34, 0x12], .staAbsY 0x1234)] = true ∧
  decodesTo [
    ([0x9D, 0x34, 0x12], .staAbsX 0x1234), ([0xA0, 0x34], .ldyImm 0x34), ([0xA1, 0x34], .ldaIndX 0x34),
    ([0xA2, 0x34], .ldxImm 0x34), ([0xA4, 0x34], .ldyZp 0x34), ([0xA5, 0x34], .ldaZp 0x34),
    ([0xA6, 0x34], .ldxZp 0x34), ([0xA9, 0x34], .ldaImm 0x34), ([0xAC, 0x34, 0x12], .ldyAbs 0x1234),
    ([0xAD, 0x34, 0x12], .ldaAbs 0x1234), ([0xAE, 0x34, 0x12], .ldxAbs 0x1234), ([0xB1, 0x34], .ldaIndY 0x34)] = true ∧
  decodesTo [
    ([0xB4, 0x34], .ldyZpX 0x34), ([0xB5, 0x34], .ldaZpX 0x34), ([0xB6, 0x34], .ldxZpY 0x34),
    ([0xB9, 0x34, 0x12], .ldaAbsY 0x1234), ([0xBC, 0x34, 0x12], .ldyAbsX 0x1234),
    ([0xBD, 0x34, 0x12], .ldaAbsX 0x1234), ([0xBE, 0x34, 0x12], .ldxAbsY 0x1234)] = true := by decide

/-- The cycle columns of R115 for 41_load_store.md: opcode, base, extra. -/
theorem test_cycles_load_store :
  cyclesAre [
    (0x81, 6, 0), (0x84, 3, 0), (0x85, 3, 0), (0x86, 3, 0), (0x8C, 4, 0), (0x8D, 4, 0), (0x8E, 4, 0), (0x91, 6, 0),
    (0x94, 4, 0), (0x95, 4, 0), (0x96, 4, 0), (0x99, 5, 0), (0x9D, 5, 0), (0xA0, 2, 0)] = true ∧
  cyclesAre [
    (0xA1, 6, 0), (0xA2, 2, 0), (0xA4, 3, 0), (0xA5, 3, 0), (0xA6, 3, 0), (0xA9, 2, 0), (0xAC, 4, 0), (0xAD, 4, 0),
    (0xAE, 4, 0), (0xB1, 5, 1), (0xB4, 4, 0), (0xB5, 4, 0), (0xB6, 4, 0), (0xB9, 4, 1)] = true ∧
  cyclesAre [
    (0xBC, 4, 1), (0xBD, 4, 1), (0xBE, 4, 1)] = true := by decide

/-- 42_arithmetic.md, words of R115. -/
theorem test_decode_arithmetic :
  decodesTo [
    ([0x61, 0x34], .adcIndX 0x34), ([0x65, 0x34], .adcZp 0x34), ([0x69, 0x34], .adcImm 0x34),
    ([0x6D, 0x34, 0x12], .adcAbs 0x1234), ([0x71, 0x34], .adcIndY 0x34), ([0x75, 0x34], .adcZpX 0x34),
    ([0x79, 0x34, 0x12], .adcAbsY 0x1234), ([0x7D, 0x34, 0x12], .adcAbsX 0x1234), ([0xE1, 0x34], .sbcIndX 0x34),
    ([0xE5, 0x34], .sbcZp 0x34), ([0xE9, 0x34], .sbcImm 0x34), ([0xED, 0x34, 0x12], .sbcAbs 0x1234)] = true ∧
  decodesTo [
    ([0xF1, 0x34], .sbcIndY 0x34), ([0xF5, 0x34], .sbcZpX 0x34), ([0xF9, 0x34, 0x12], .sbcAbsY 0x1234),
    ([0xFD, 0x34, 0x12], .sbcAbsX 0x1234)] = true := by decide

/-- The cycle columns of R115 for 42_arithmetic.md: opcode, base, extra. -/
theorem test_cycles_arithmetic :
  cyclesAre [
    (0x61, 6, 0), (0x65, 3, 0), (0x69, 2, 0), (0x6D, 4, 0), (0x71, 5, 1), (0x75, 4, 0), (0x79, 4, 1), (0x7D, 4, 1),
    (0xE1, 6, 0), (0xE5, 3, 0), (0xE9, 2, 0), (0xED, 4, 0), (0xF1, 5, 1), (0xF5, 4, 0)] = true ∧
  cyclesAre [
    (0xF9, 4, 1), (0xFD, 4, 1)] = true := by decide

/-- 43_logical.md, words of R115. -/
theorem test_decode_logical :
  decodesTo [
    ([0x01, 0x34], .oraIndX 0x34), ([0x05, 0x34], .oraZp 0x34), ([0x09, 0x34], .oraImm 0x34),
    ([0x0D, 0x34, 0x12], .oraAbs 0x1234), ([0x11, 0x34], .oraIndY 0x34), ([0x15, 0x34], .oraZpX 0x34),
    ([0x19, 0x34, 0x12], .oraAbsY 0x1234), ([0x1D, 0x34, 0x12], .oraAbsX 0x1234), ([0x21, 0x34], .andIndX 0x34),
    ([0x24, 0x34], .bitZp 0x34), ([0x25, 0x34], .andZp 0x34), ([0x29, 0x34], .andImm 0x34)] = true ∧
  decodesTo [
    ([0x2C, 0x34, 0x12], .bitAbs 0x1234), ([0x2D, 0x34, 0x12], .andAbs 0x1234), ([0x31, 0x34], .andIndY 0x34),
    ([0x35, 0x34], .andZpX 0x34), ([0x39, 0x34, 0x12], .andAbsY 0x1234), ([0x3D, 0x34, 0x12], .andAbsX 0x1234),
    ([0x41, 0x34], .eorIndX 0x34), ([0x45, 0x34], .eorZp 0x34), ([0x49, 0x34], .eorImm 0x34),
    ([0x4D, 0x34, 0x12], .eorAbs 0x1234), ([0x51, 0x34], .eorIndY 0x34), ([0x55, 0x34], .eorZpX 0x34)] = true ∧
  decodesTo [
    ([0x59, 0x34, 0x12], .eorAbsY 0x1234), ([0x5D, 0x34, 0x12], .eorAbsX 0x1234)] = true := by decide

/-- The cycle columns of R115 for 43_logical.md: opcode, base, extra. -/
theorem test_cycles_logical :
  cyclesAre [
    (0x01, 6, 0), (0x05, 3, 0), (0x09, 2, 0), (0x0D, 4, 0), (0x11, 5, 1), (0x15, 4, 0), (0x19, 4, 1), (0x1D, 4, 1),
    (0x21, 6, 0), (0x24, 3, 0), (0x25, 3, 0), (0x29, 2, 0), (0x2C, 4, 0), (0x2D, 4, 0)] = true ∧
  cyclesAre [
    (0x31, 5, 1), (0x35, 4, 0), (0x39, 4, 1), (0x3D, 4, 1), (0x41, 6, 0), (0x45, 3, 0), (0x49, 2, 0), (0x4D, 4, 0),
    (0x51, 5, 1), (0x55, 4, 0), (0x59, 4, 1), (0x5D, 4, 1)] = true := by decide

/-- 44_shift_rotate.md, words of R115. -/
theorem test_decode_shift_rotate :
  decodesTo [
    ([0x06, 0x34], .aslZp 0x34), ([0x0A], .aslAcc), ([0x0E, 0x34, 0x12], .aslAbs 0x1234), ([0x16, 0x34], .aslZpX 0x34),
    ([0x1E, 0x34, 0x12], .aslAbsX 0x1234), ([0x26, 0x34], .rolZp 0x34), ([0x2A], .rolAcc),
    ([0x2E, 0x34, 0x12], .rolAbs 0x1234), ([0x36, 0x34], .rolZpX 0x34), ([0x3E, 0x34, 0x12], .rolAbsX 0x1234),
    ([0x46, 0x34], .lsrZp 0x34), ([0x4A], .lsrAcc)] = true ∧
  decodesTo [
    ([0x4E, 0x34, 0x12], .lsrAbs 0x1234), ([0x56, 0x34], .lsrZpX 0x34), ([0x5E, 0x34, 0x12], .lsrAbsX 0x1234),
    ([0x66, 0x34], .rorZp 0x34), ([0x6A], .rorAcc), ([0x6E, 0x34, 0x12], .rorAbs 0x1234), ([0x76, 0x34], .rorZpX 0x34),
    ([0x7E, 0x34, 0x12], .rorAbsX 0x1234)] = true := by decide

/-- The cycle columns of R115 for 44_shift_rotate.md: opcode, base, extra. -/
theorem test_cycles_shift_rotate :
  cyclesAre [
    (0x06, 5, 0), (0x0A, 2, 0), (0x0E, 6, 0), (0x16, 6, 0), (0x1E, 7, 0), (0x26, 5, 0), (0x2A, 2, 0), (0x2E, 6, 0),
    (0x36, 6, 0), (0x3E, 7, 0), (0x46, 5, 0), (0x4A, 2, 0), (0x4E, 6, 0), (0x56, 6, 0)] = true ∧
  cyclesAre [
    (0x5E, 7, 0), (0x66, 5, 0), (0x6A, 2, 0), (0x6E, 6, 0), (0x76, 6, 0), (0x7E, 7, 0)] = true := by decide

/-- 45_compare.md, words of R115. -/
theorem test_decode_compare :
  decodesTo [
    ([0xC0, 0x34], .cpyImm 0x34), ([0xC1, 0x34], .cmpIndX 0x34), ([0xC4, 0x34], .cpyZp 0x34),
    ([0xC5, 0x34], .cmpZp 0x34), ([0xC9, 0x34], .cmpImm 0x34), ([0xCC, 0x34, 0x12], .cpyAbs 0x1234),
    ([0xCD, 0x34, 0x12], .cmpAbs 0x1234), ([0xD1, 0x34], .cmpIndY 0x34), ([0xD5, 0x34], .cmpZpX 0x34),
    ([0xD9, 0x34, 0x12], .cmpAbsY 0x1234), ([0xDD, 0x34, 0x12], .cmpAbsX 0x1234), ([0xE0, 0x34], .cpxImm 0x34)] = true ∧
  decodesTo [
    ([0xE4, 0x34], .cpxZp 0x34), ([0xEC, 0x34, 0x12], .cpxAbs 0x1234)] = true := by decide

/-- The cycle columns of R115 for 45_compare.md: opcode, base, extra. -/
theorem test_cycles_compare :
  cyclesAre [
    (0xC0, 2, 0), (0xC1, 6, 0), (0xC4, 3, 0), (0xC5, 3, 0), (0xC9, 2, 0), (0xCC, 4, 0), (0xCD, 4, 0), (0xD1, 5, 1),
    (0xD5, 4, 0), (0xD9, 4, 1), (0xDD, 4, 1), (0xE0, 2, 0), (0xE4, 3, 0), (0xEC, 4, 0)] = true := by decide

/-- 46_incdec.md, words of R115. -/
theorem test_decode_incdec :
  decodesTo [
    ([0x88], .dey), ([0xC6, 0x34], .decZp 0x34), ([0xC8], .iny), ([0xCA], .dex), ([0xCE, 0x34, 0x12], .decAbs 0x1234),
    ([0xD6, 0x34], .decZpX 0x34), ([0xDE, 0x34, 0x12], .decAbsX 0x1234), ([0xE6, 0x34], .incZp 0x34), ([0xE8], .inx),
    ([0xEE, 0x34, 0x12], .incAbs 0x1234), ([0xF6, 0x34], .incZpX 0x34), ([0xFE, 0x34, 0x12], .incAbsX 0x1234)] = true := by decide

/-- The cycle columns of R115 for 46_incdec.md: opcode, base, extra. -/
theorem test_cycles_incdec :
  cyclesAre [
    (0x88, 2, 0), (0xC6, 5, 0), (0xC8, 2, 0), (0xCA, 2, 0), (0xCE, 6, 0), (0xD6, 6, 0), (0xDE, 7, 0), (0xE6, 5, 0),
    (0xE8, 2, 0), (0xEE, 6, 0), (0xF6, 6, 0), (0xFE, 7, 0)] = true := by decide

/-- 47_branch.md, words of R115. -/
theorem test_decode_branch :
  decodesTo [
    ([0x10, 0x34], .bpl 0x34), ([0x30, 0x34], .bmi 0x34), ([0x50, 0x34], .bvc 0x34), ([0x70, 0x34], .bvs 0x34),
    ([0x90, 0x34], .bcc 0x34), ([0xB0, 0x34], .bcs 0x34), ([0xD0, 0x34], .bne 0x34), ([0xF0, 0x34], .beq 0x34)] = true := by decide

/-- The cycle columns of R115 for 47_branch.md: opcode, base, extra. -/
theorem test_cycles_branch :
  cyclesAre [
    (0x10, 2, 0), (0x30, 2, 0), (0x50, 2, 0), (0x70, 2, 0), (0x90, 2, 0), (0xB0, 2, 0), (0xD0, 2, 0), (0xF0, 2, 0)] = true := by decide

/-- 48_stack_control.md, words of R115. -/
theorem test_decode_stack_control :
  decodesTo [
    ([0x00], .brk), ([0x08], .php), ([0x20, 0x34, 0x12], .jsr 0x1234), ([0x28], .plp), ([0x40], .rti), ([0x48], .pha),
    ([0x4C, 0x34, 0x12], .jmpAbs 0x1234), ([0x60], .rts), ([0x68], .pla), ([0x6C, 0x34, 0x12], .jmpInd 0x1234)] = true := by decide

/-- The cycle columns of R115 for 48_stack_control.md: opcode, base, extra. -/
theorem test_cycles_stack_control :
  cyclesAre [
    (0x00, 7, 0), (0x08, 3, 0), (0x20, 6, 0), (0x28, 4, 0), (0x40, 6, 0), (0x48, 3, 0), (0x4C, 3, 0), (0x60, 6, 0),
    (0x68, 4, 0), (0x6C, 5, 0)] = true := by decide

/-- 49_flags_transfer_nop.md, words of R115. -/
theorem test_decode_flags_transfer_nop :
  decodesTo [
    ([0x18], .clc), ([0x38], .sec), ([0x58], .cli), ([0x78], .sei), ([0x8A], .txa), ([0x98], .tya), ([0x9A], .txs),
    ([0xA8], .tay), ([0xAA], .tax), ([0xB8], .clv), ([0xBA], .tsx), ([0xD8], .cld)] = true ∧
  decodesTo [
    ([0xEA], .nop), ([0xF8], .sed)] = true := by decide

/-- The cycle columns of R115 for 49_flags_transfer_nop.md: opcode, base, extra. -/
theorem test_cycles_flags_transfer_nop :
  cyclesAre [
    (0x18, 2, 0), (0x38, 2, 0), (0x58, 2, 0), (0x78, 2, 0), (0x8A, 2, 0), (0x98, 2, 0), (0x9A, 2, 0), (0xA8, 2, 0),
    (0xAA, 2, 0), (0xB8, 2, 0), (0xBA, 2, 0), (0xD8, 2, 0), (0xEA, 2, 0), (0xF8, 2, 0)] = true := by decide

/-! ### Encodings that are no instruction -/

/-- A13 (30_encoding.md R117). -/
theorem test_decode_refuses_02 : (match decode [0x02, 0x00, 0x00] with | .error (.unknownOpcode 0x02) => true | _ => false) = true := by
  decide

theorem test_decode_refuses_a_cut_word : (match decode [0xAD, 0x34] with | .error .truncated => true | _ => false) = true := by decide

/-- Table words: bit 0 is the low bit of the opcode byte, missing operand bytes are 0. -/
theorem test_table_word : decodeTableWord 24 0x1234AD = some (.ldaAbs 0x1234) ∧ decodeTableWord 8 0x20 = some (.jsr 0x0000) := by decide

theorem test_with_fetch_word : after (step (base.withFetchWord 16 0x80A9)) (fun t => t.acc == 0x80 && t.pc == 0x8002) = true := by decide

/-! ### Memory map (vectors M1 to M15, E1) -/

theorem test_M1_M2_M3_canon : [0x0800, 0x1FFF, 0x07FF, 0x2008, 0x3FFF, 0x2007, 0x4000, 0x4016, 0x8000, 0xFFFF].map canon =
    [0x0000, 0x07FF, 0x07FF, 0x2000, 0x2007, 0x2007, 0x4000, 0x4016, 0x8000, 0xFFFF] := by decide

theorem test_M4_M5_vcanon : [0x3000, 0x3EFF, 0x2FFF, 0x3F20, 0x3F3F, 0x3FFF].map vcanon =
    [0x2000, 0x2EFF, 0x2FFF, 0x3F00, 0x3F1F, 0x3F1F] := by decide

theorem test_M6_M7_vcanon : [0x3F10, 0x3F14, 0x3F18, 0x3F1C, 0x3F11, 0x4000, 0xFFFF].map vcanon =
    [0x3F00, 0x3F04, 0x3F08, 0x3F0C, 0x3F11, 0x4000, 0xFFFF] := by decide

theorem test_E1_video_mirrors : done (vmemWrite 0x3F10 0x12 base) (fun t => t.vpeek 0x3F00 == 0x12 && t.vpeek 0x3F20 == 0x12) = true ∧
    done (vmemWrite 0x2400 0x34 base) (fun t => t.vpeek 0x3400 == 0x34) = true := by decide

theorem test_E1_port_mirrors : done (memWrite 0x3FF8 0x12 base) (fun t => t.peek 0x2000 == 0x12 && t.peek 0x2008 == 0x12) = true := by
  decide

/-- E1, LS4: the stored byte is seen through every alias, STATUS is unchanged. -/
theorem test_E1_LS4_sta_abs : after (run { base with acc := 0xAB, status := 0x83 } [0x8D, 0x00, 0x18]) (fun t =>
    [0x0000, 0x0800, 0x1000, 0x1800].all (fun a => t.peek a == 0xAB) && t.status == 0x83 && t.cyc == 4) = true := by decide

theorem test_M8_sprite_port : after (run (cells [(0x2003, 0xFF)] { base with acc := 0xAB }) [0x8D, 0x04, 0x20]) (fun t =>
    Memory.read t.sprite 0xFF == 0xAB && t.peek 0x2003 == 0x00 && t.peek 0x2004 == 0xAB && t.cyc == 4) = true := by decide

theorem test_M9_address_port_high : done (memWrite 0x2006 0x3F base) (fun t =>
    t.vaddrLatch == 0x3F00 && t.vaddrToggle && t.peek 0x2006 == 0x3F) = true := by decide

theorem test_M10_address_port_low : done (memWrite 0x2006 0x10 { base with vaddrLatch := 0x3F00, vaddrToggle := true }) (fun t =>
    t.vaddrLatch == 0x3F10 && !t.vaddrToggle) = true := by decide

theorem test_M11_data_port : done (memWrite 0x2007 0x21 { base with vaddrLatch := 0x3F10 }) (fun t =>
    Memory.read t.video 0x3F00 == 0x21 && t.vaddrLatch == 0x3F11 && t.peek 0x2007 == 0x21) = true := by decide

theorem test_M12_data_port_mirror : done (memWrite 0x200F 0x21 { base with vaddrLatch := 0x3F1C }) (fun t =>
    Memory.read t.video 0x3F0C == 0x21 && t.vaddrLatch == 0x3F1D) = true := by decide

theorem test_M13_data_port_past_the_bus : faultsWith (memWrite 0x2007 0x00 { base with vaddrLatch := 0x10000 }).outcome
    (.addressOutOfRange 0x10000) = true := by decide

theorem test_M15_data_port_read : after (run (cells [(0x2007, 0x21)] base) [0xAD, 0x07, 0x20]) (fun t => t.acc == 0x21) = true := by
  decide

/-! ### Controller ports (vectors K1 to K5); the button states are a free value, so a read is tested by what it leaves -/

theorem test_K1_a_read_moves_the_index : (padRead .one { base with padOne := ⟨7, none⟩ }).2.padOne.index = 0 ∧
    (padRead .one base).2.padOne.index = 1 := by decide

theorem test_K1_a_read_is_a_button : (padRead .one base).1 = if Config.buttons .one 0 0 then 0x01 else 0x00 := rfl

theorem test_K2_zero_then_zero_keeps_the_index : (padWrite .one 0x00 { base with padOne := ⟨1, some false⟩ }).padOne = ⟨1, some false⟩ := by
  decide

theorem test_K3_one_then_zero_resets : (padWrite .one 0x00 { base with padOne := ⟨2, some true⟩ }).padOne = ⟨0, some false⟩ := by decide

theorem test_K4_only_bit_0_counts : (padWrite .one 0x02 (padWrite .one 0x03 { base with padOne := ⟨5, none⟩ })).padOne = ⟨0, some false⟩ := by
  decide

theorem test_K5_ports_are_separate : done (memWrite 0x4016 0x00 { base with padOne := ⟨3, some true⟩, padTwo := ⟨4, some true⟩ })
    (fun t => t.padOne.index == 0 && t.padTwo == ⟨4, some true⟩ && t.peek 0x4016 == 0x00) = true := by decide

/-! ### Addressing modes (vectors E6 to E8, A1 to A14) -/

theorem test_A1_lda_imm : after (run base [0xA9, 0x80]) (fun t =>
    t.acc == 0x80 && t.status == 0x80 && t.pc == 0x8002 && t.cyc == 2) = true := by decide

theorem test_A2_lda_absY : after (run (cells [(0x0100, 0x80)] { base with y := 1 }) [0xB9, 0xFF, 0x00]) (fun t =>
    t.acc == 0x80 && t.flag .N && t.cyc == 5) = true := by decide

theorem test_A3_lda_absX_past_the_bus : faultsWith (run { base with x := 0x20 } [0xBD, 0xF0, 0xFF]) (.addressOutOfRange 0x10010) = true := by
  decide

theorem test_E6_lda_absX_crossed : after (run (cells [(0x1310, 0x01)] { base with x := 0x20 }) [0xBD, 0xF0, 0x12]) (fun t =>
    t.acc == 0x01 && t.cyc == 5) = true := by decide

theorem test_A4_sta_absX : after (run { base with x := 0x20, acc := 0x05 } [0x9D, 0xF0, 0x12]) (fun t =>
    t.cell 0x0310 == 0x05 && t.cyc == 5) = true := by decide

theorem test_A5_lda_indX : after (run (cells [(0x00FF, 0x34), (0x0000, 0x12), (0x1234, 0x99)] { base with x := 1 }) [0xA1, 0xFE])
    (fun t => t.acc == 0x99 && t.flag .N && t.cyc == 6) = true := by decide

theorem test_A6_A8_lda_indY : after (run (cells [(0x40, 0xF8), (0x41, 0x12), (0x1308, 0x5A)] { base with y := 0x10 }) [0xB1, 0x40])
    (fun t => t.acc == 0x5A && t.cyc == 6) = true ∧
    faultsWith (run (cells [(0x40, 0xF8), (0x41, 0xFF)] { base with y := 0x10 }) [0xB1, 0x40]) (.addressOutOfRange 0x10008) = true := by
  decide

theorem test_A7_lda_indY_pointer_wraps : after (run (cells [(0xFF, 0x00), (0x00, 0x03), (0x0300, 0x11)] base) [0xB1, 0xFF])
    (fun t => t.acc == 0x11 && t.cyc == 5) = true := by decide

theorem test_A9_jmp_ind : after (run (cells [(0x1000, 0x34), (0x1001, 0x12)] base) [0x6C, 0x00, 0x10]) (fun t =>
    t.pc == 0x1234 && t.cyc == 5) = true := by decide

theorem test_E8_jmp_ind_stays_on_the_page : after (run (cells [(0x10FF, 0x34), (0x1000, 0x12), (0x1100, 0x99)] base) [0x6C, 0xFF, 0x10])
    (fun t => t.pc == 0x1234 && t.cyc == 5) = true := by decide

theorem test_A10_ldy_absX : after (run (cells [(0x0600, 0x7F)] { base with x := 1 }) [0xBC, 0xFF, 0x05]) (fun t =>
    t.y == 0x7F && t.cyc == 5) = true := by decide

theorem test_A11_stx_zpY : after (run { base with x := 9, y := 3 } [0x96, 0xFF]) (fun t => t.peek 0x0002 == 0x09 && t.cyc == 4) = true := by
  decide

theorem test_A12_sty_zpX : after (run { base with y := 7, x := 0x81 } [0x94, 0x80]) (fun t => t.peek 0x0001 == 0x07 && t.cyc == 4) = true := by
  decide

theorem test_A13_unknown_opcode : faultsWith (run base [0x02]) (.unknownOpcode 0x02 0x8000) = true := by decide

theorem test_A14_nop_at_the_top : after (run { base with pc := 0xFFFF } [0xEA]) (fun t => t.pc == 0x10000 && t.cyc == 2) = true ∧
    faultsWith (step { base with pc := 0x10000 }) (.addressOutOfRange 0x10000) = true := by decide

theorem test_E7_lda_zpX : after (run (cells [(0x0010, 0x77)] { base with x := 0x20 }) [0xB5, 0xF0]) (fun t =>
    t.acc == 0x77 && t.cyc == 4) = true := by decide

theorem test_E7_ldx_zpY : after (run { base with y := 2 } [0xB6, 0xFF]) (fun t => t.x == 0 && t.status == 0x02 && t.cyc == 4) = true := by
  decide

/-! ### Loads and stores (LS1 to LS5) -/

theorem test_LS1_lda_zero : after (run { base with status := 0x80 } [0xA9, 0x00]) (fun t => t.acc == 0 && t.status == 0x02) = true := by
  decide
theorem test_LS2_ldx_imm : after (run base [0xA2, 0xFF]) (fun t => t.x == 0xFF && t.status == 0x80) = true := by decide
theorem test_LS3_ldy_imm : after (run { base with status := 0x82 } [0xA0, 0x7F]) (fun t => t.y == 0x7F && t.status == 0x00) = true := by
  decide
theorem test_LS5_sta_indY : after (run (cells [(0x40, 0xF8), (0x41, 0x02)] { base with y := 0x10, acc := 1 }) [0x91, 0x40]) (fun t =>
    t.peek 0x0308 == 0x01 && t.cyc == 6) = true := by decide

/-! ### Arithmetic (E2, E4, AR1 to AR9) -/

theorem test_E2_adc_imm_carry : after (run { base with acc := 0xFF } [0x69, 0x01]) (fun t =>
    t.acc == 0x00 && t.status == 0x03 && t.cyc == 2) = true := by decide
theorem test_AR2_adc_imm_overflow : after (run { base with acc := 0x80 } [0x69, 0x80]) (fun t => t.acc == 0x00 && t.status == 0x43) = true := by
  decide
/-- E4, AR1, AR3 in one: the sum itself with and without the carry, and with D set. -/
theorem test_E4_AR1_AR3_sums : (addCore 0x40 0x40 false base).status = 0xC0 ∧ (addCore 0x7F 0x00 true base).acc = 0x80 ∧
    (addCore 0x7F 0x00 true base).status = 0xC0 ∧ (addCore 0x09 0x01 false { base with status := 0x08 }).acc = 0x0A ∧
    (addCore 0x09 0x01 false { base with status := 0x08 }).status = 0x08 := by decide
theorem test_AR4_sbc_imm_borrow : after (run { base with acc := 0x55, status := 0x01 } [0xE9, 0x56]) (fun t =>
    t.acc == 0xFF && t.status == 0x80) = true := by decide
theorem test_AR6_sbc_imm_takes_the_borrow : after (run { base with acc := 0x05 } [0xE9, 0x01]) (fun t =>
    t.acc == 0x03 && t.status == 0x01) = true := by decide
theorem test_AR7_sbc_zp : after (run (cells [(0x10, 0x01)] { base with acc := 0x80, status := 0x01 }) [0xE5, 0x10]) (fun t =>
    t.acc == 0x7F && t.status == 0x41) = true := by decide
theorem test_AR8_sbc_zpX : after (run (cells [(0x12, 0xFF)] { base with acc := 0x7F, status := 0x01, x := 2 }) [0xF5, 0x10]) (fun t =>
    t.acc == 0x80 && t.status == 0xC0) = true := by decide
theorem test_AR9_adc_absX : after (run (cells [(0x0310, 0x01)] { base with acc := 1, x := 0x20 }) [0x7D, 0xF0, 0x12]) (fun t =>
    t.acc == 2 && t.cyc == 5) = true := by decide

/-! ### Logical (LG1 to LG5) -/

theorem test_LG1_and_imm : after (run { base with acc := 0xF0 } [0x29, 0x0F]) (fun t => t.acc == 0 && t.status == 0x02) = true := by decide
theorem test_LG2_ora_imm : after (run { base with acc := 0x01 } [0x09, 0x80]) (fun t => t.acc == 0x81 && t.status == 0x80) = true := by
  decide
theorem test_LG3_eor_imm : after (run { base with acc := 0xFF } [0x49, 0xFF]) (fun t => t.acc == 0 && t.status == 0x02) = true := by decide
theorem test_LG4_bit_zp : after (run (cells [(0x10, 0xC0)] { base with acc := 0x01 }) [0x24, 0x10]) (fun t =>
    t.acc == 0x01 && t.status == 0xC2 && t.cyc == 3) = true := by decide
theorem test_LG5_bit_abs : after (run (cells [(0x0200, 0x01)] { base with acc := 0x41, status := 0xC2 }) [0x2C, 0x00, 0x02]) (fun t =>
    t.status == 0x00 && t.cyc == 4) = true := by decide

/-! ### Shifts and rotates (SR1 to SR8) -/

theorem test_SR1_asl_acc : after (run { base with acc := 0x81 } [0x0A]) (fun t => t.acc == 0x02 && t.status == 0x01) = true := by decide
theorem test_SR2_lsr_acc : after (run { base with acc := 0x01 } [0x4A]) (fun t => t.acc == 0x00 && t.status == 0x03) = true := by decide
theorem test_SR3_rol_acc : after (run { base with acc := 0x80, status := 0x01 } [0x2A]) (fun t =>
    t.acc == 0x01 && t.status == 0x01) = true := by decide
theorem test_SR4_ror_acc : after (run { base with acc := 0x01, status := 0x01 } [0x6A]) (fun t =>
    t.acc == 0x80 && t.status == 0x81) = true := by decide
theorem test_SR5_rol_zp : after (run (cells [(0x10, 0x40)] { base with status := 0x01 }) [0x26, 0x10]) (fun t =>
    t.peek 0x10 == 0x81 && t.status == 0x80 && t.cyc == 5) = true := by decide
theorem test_SR6_ror_zp : after (run (cells [(0x10, 0x01)] base) [0x66, 0x10]) (fun t =>
    t.peek 0x10 == 0x00 && t.status == 0x03 && t.cyc == 5) = true := by decide
theorem test_SR7_asl_absX : after (run (cells [(0x0300, 0x40)] { base with x := 1 }) [0x1E, 0xFF, 0x02]) (fun t =>
    t.peek 0x0300 == 0x80 && t.status == 0x80 && t.cyc == 7) = true := by decide
theorem test_SR8_lsr_zpX : after (run (cells [(0x01, 0x80)] { base with x := 2 }) [0x56, 0xFF]) (fun t =>
    t.peek 0x01 == 0x40 && t.status == 0x00 && t.cyc == 6) = true := by decide

/-! ### Compares (CP1 to CP5) -/

theorem test_CP1_cmp_equal : after (run { base with acc := 0x42 } [0xC9, 0x42]) (fun t => t.status == 0x03) = true := by decide
theorem test_CP3_cmp_unsigned : after (run { base with acc := 0x80 } [0xC9, 0x01]) (fun t => t.status == 0x01) = true := by decide
theorem test_CP2_cmp_less : (compareFlags 0x10 0x20 base).status = 0x80 := by decide
theorem test_CP4_cpx_imm : after (run base [0xE0, 0xFF]) (fun t => t.status == 0x00) = true := by decide
theorem test_CP5_cpy_zp : after (run (cells [(0x10, 0x7F)] { base with y := 0x80 }) [0xC4, 0x10]) (fun t =>
    t.status == 0x01 && t.cyc == 3) = true := by decide

/-! ### Increment and decrement (ID1 to ID6) -/

theorem test_ID1_inc_zp : after (run (cells [(0x10, 0xFF)] base) [0xE6, 0x10]) (fun t =>
    t.peek 0x10 == 0x00 && t.status == 0x02 && t.cyc == 5) = true := by decide
theorem test_ID2_dec_zp : after (run (cells [(0x10, 0x00)] base) [0xC6, 0x10]) (fun t => t.peek 0x10 == 0xFF && t.status == 0x80) = true := by
  decide
theorem test_ID3_inx : after (run { base with x := 0x7F } [0xE8]) (fun t => t.x == 0x80 && t.status == 0x80) = true := by decide
theorem test_ID6_inx_wraps : after (run { base with x := 0xFF, status := 0x01 } [0xE8]) (fun t => t.x == 0 && t.status == 0x03) = true := by
  decide
theorem test_ID4_dey : after (run { base with y := 0x01 } [0x88]) (fun t => t.y == 0 && t.status == 0x02) = true := by decide
theorem test_ID5_inc_absX : after (run (cells [(0x0300, 0x7F)] { base with x := 1 }) [0xFE, 0xFF, 0x02]) (fun t =>
    t.peek 0x0300 == 0x80 && t.status == 0x80 && t.cyc == 7) = true := by decide

/-! ### Branches (E5, BR1 to BR6) -/

theorem test_E5_bne : after (run base [0xD0, 0x05]) (fun t => t.pc == 0x8007 && t.cyc == 3) = true ∧
    after (run { base with status := 0x02 } [0xD0, 0x05]) (fun t => t.pc == 0x8002 && t.cyc == 2) = true := by decide
theorem test_E5_beq_across_a_page : after (run { base with pc := 0x8100, status := 0x02 } [0xF0, 0xFC]) (fun t =>
    t.pc == 0x80FE && t.cyc == 3) = true := by decide
theorem test_BR1_bcc : after (run { base with pc := 0x80F0 } [0x90, 0x7F]) (fun t => t.pc == 0x8171 && t.cyc == 3) = true := by decide
theorem test_BR2_bmi_below_zero : after (run { base with pc := 0x0010, status := 0x80 } [0x30, 0x80]) (fun t => t.pc == -0x6E && t.cyc == 3)
    = true ∧ faultsWith (step { base with pc := -0x6E }) (.addressOutOfRange (-0x6E)) = true := by decide
theorem test_BR3_bvs : after (run { base with status := 0x40 } [0x70, 0x02]) (fun t => t.pc == 0x8004 && t.cyc == 3) = true := by decide
theorem test_BR4_bpl : after (run { base with status := 0x80 } [0x10, 0x02]) (fun t => t.pc == 0x8002 && t.cyc == 2) = true := by decide
theorem test_BR5_bcs : after (run { base with status := 0x01 } [0xB0, 0xFE]) (fun t => t.pc == 0x8000 && t.cyc == 3) = true := by decide
theorem test_BR6_bne_back : after (run { base with pc := 0x801B } [0xD0, 0xF1]) (fun t => t.pc == 0x800E && t.cyc == 3) = true := by decide

/-! ### Stack and control transfer (E9, SC1 to SC13) -/

theorem test_E9_pha : after (run { base with stk := 0xFC, acc := 0x42 } [0x48]) (fun t => t.peek 0x01FC == 0x42 && t.stk == 0xFB) = true := by
  decide
theorem test_SC1_pha_full : faultsWith (run base [0x48]) (.stackOverflow 0x8000) = true := by decide
theorem test_SC2_pla_empty : faultsWith (run { base with stk := 0xFF } [0x68]) (.stackUnderflow 0x8000) = true := by decide
theorem test_SC3_pla : after (run { base with stk := 0xFC, acc := 0x42 } [0x68]) (fun t =>
    t.acc == 0 && t.stk == 0xFD && t.status == 0x02 && t.cyc == 4) = true := by decide
theorem test_SC4_php : after (run { base with stk := 0xFF, status := 0x81 } [0x08]) (fun t =>
    t.peek 0x01FF == 0x81 && t.stk == 0xFE && t.cyc == 3) = true := by decide
theorem test_SC5_plp : after (run (cells [(0x01FF, 0x30)] { base with stk := 0xFE }) [0x28]) (fun t =>
    t.status == 0x30 && t.stk == 0xFF) = true := by decide
theorem test_SC6_jsr : after (run { base with pc := 0x8005, stk := 0xFF } [0x20, 0x0D, 0x80]) (fun t =>
    t.peek 0x01FF == 0x80 && t.peek 0x01FE == 0x07 && t.stk == 0xFD && t.pc == 0x800D && t.cyc == 6) = true := by decide
theorem test_SC7_jsr_full : faultsWith (run { base with pc := 0x8005, stk := 0x01 } [0x20, 0x0D, 0x80]) (.stackOverflow 0x8005) = true := by
  decide
theorem test_SC8_rts : after (run (cells [(0x01FE, 0x07), (0x01FF, 0x80)] { base with stk := 0xFD }) [0x60]) (fun t =>
    t.pc == 0x8008 && t.stk == 0xFF && t.cyc == 6) = true := by decide
theorem test_SC9_rts_past_the_bus : after (run (cells [(0x01FE, 0xFF), (0x01FF, 0xFF)] { base with stk := 0xFD }) [0x60]) (fun t =>
    t.pc == 0x10000) = true := by decide
theorem test_SC10_brk : after (run (cells [(0xFFFE, 0x00), (0xFFFF, 0xA0)] { base with pc := 0x9000, stk := 0xFF, status := 0x01 }) [0x00])
    (fun t => t.peek 0x01FF == 0x90 && t.peek 0x01FE == 0x02 && t.peek 0x01FD == 0x01 && t.stk == 0xFC && t.status == 0x15 &&
      t.pc == 0xA000 && t.cyc == 7) = true := by decide
theorem test_SC11_brk_full : faultsWith (run { base with pc := 0x9000, stk := 0x02 } [0x00]) (.stackOverflow 0x9000) = true := by decide
theorem test_SC12_rti : after (run (cells [(0x01FD, 0x01), (0x01FE, 0x02), (0x01FF, 0x90)] { base with stk := 0xFC }) [0x40]) (fun t =>
    t.status == 0x01 && t.pc == 0x9002 && t.stk == 0xFF && t.cyc == 6) = true := by decide
theorem test_SC13_jmp_abs : after (run { base with pc := 0x801D } [0x4C, 0x1D, 0x80]) (fun t => t.pc == 0x801D && t.cyc == 3) = true := by
  decide

/-! ### Flags, transfers, no-op (FT1 to FT6) -/

theorem test_FT1_sec : after (run base [0x38]) (fun t => t.status == 0x01 && t.cyc == 2) = true := by decide
theorem test_FT1_sed : after (run { base with status := 0x01 } [0xF8]) (fun t => t.status == 0x09) = true := by decide
theorem test_FT1_sei : after (run { base with status := 0x09 } [0x78]) (fun t => t.status == 0x0D) = true := by decide
theorem test_FT2_clv : after (run { base with status := 0xC0 } [0xB8]) (fun t => t.status == 0x80) = true := by decide
theorem test_FT3_txs : after (run { base with stk := 0xFF } [0x9A]) (fun t => t.stk == 0 && t.status == 0x00) = true := by decide
theorem test_FT4_tsx : after (run { base with stk := 0xFD } [0xBA]) (fun t => t.x == 0xFD && t.status == 0x80) = true := by decide
theorem test_FT5_tax : after (run { base with x := 0x55 } [0xAA]) (fun t => t.x == 0 && t.status == 0x02) = true := by decide
theorem test_FT6_tsx_after_construction : after (run base [0xBA]) (fun t => t.x == 0 && t.status == 0x02) = true := by decide

/-! ### The trace (P1's newest entry) -/

theorem test_P1_trace : after (run { base with pc := 0x801B, status := 0x02 } [0xD0, 0xF1]) (fun t =>
    t.trace.map (fun e => (e.opcode, e.mode.name, e.pc)) == [(0xD0, "Relative", 0x801B)]) = true := by decide

/-! ### NMI, timer and driver (NM1 to NM6) -/

theorem test_NM1_at_the_threshold : done (driverStep 20 3 { base with vblankCount := 17 }) (fun t =>
    t.vblankCount == 20 && !t.nmiInFlight && t.pc == 0x8000) = true := by decide

/-- NM2, row 8 of P4: the driver step after a tick of 5 cycles. -/
theorem test_NM2_entry : done (driverStep 20 5 (cells [(0xFFFA, 0x00), (0xFFFB, 0x90)]
      { base with vblankCount := 20, stk := 0xFF, pc := 0x800B, cyc := 25 })) (fun t =>
    t.vblankCount == 0 && t.peek 0x2002 == 0x80 && t.nmiInFlight && t.nmiCapturedSP == 0xFF && t.peek 0x01FF == 0x80 &&
    t.peek 0x01FE == 0x0B && t.peek 0x01FD == 0x00 && t.stk == 0xFC && t.status == 0x04 && t.pc == 0x9000 && t.cyc == 25) = true := by
  decide

/-- P4 row 13: a JMP of 3 cycles takes the timer past 20 and the step enters the NMI. -/
theorem test_P4_step_with_the_driver : after (run (cells [(0xFFFB, 0x90), (0x2002, 0x80)]
      { base with vblankCycles := some 20, vblankCount := 19, stk := 0xFF, pc := 0x800B, cyc := 44 }) [0x4C, 0x09, 0x80]) (fun t =>
    t.cyc == 47 && t.vblankCount == 0 && t.peek 0x2002 == 0x00 && t.peek 0x01FE == 0x09 && t.pc == 0x9000 && t.stk == 0xFC) = true := by
  decide

theorem test_NM3_entry_full : faultsWith (driverStep 20 21 { base with stk := 0x02 }).outcome (.stackOverflow 0x8000) = true := by decide

theorem test_NM4_entry_off_the_bus : faultsWith (driverStep 20 21 { base with stk := 0xFF, pc := 0x10000 }).outcome
    (.addressOutOfRange 0x10000) = true := by decide

theorem test_NM5_lost : done (driverStep 20 21 { base with nmiInFlight := true, nmiCapturedSP := 0xFF, stk := 0xFC }) (fun t =>
    t.vblankCount == 0 && t.peek 0x2002 == 0x80 && t.stk == 0xFC && t.pc == 0x8000 && t.nmiInFlight) = true := by decide

theorem test_NM6_finish : done (driverStep 20 6 { base with nmiInFlight := true, nmiCapturedSP := 0xFF, stk := 0xFF, vblankCount := 5 })
    (fun t => !t.nmiInFlight && t.vblankCount == 11) = true := by decide

/-! ### Load (E10, LD1, LD2; the loads that succeed are witnessed below) -/

/-- The error of a load, if it fails. -/
def loadError (r : List Byte) : Option LoadError :=
  match load Params.default r with
  | .error e => some e
  | .ok _ => none

theorem test_E10_bad_magic : loadError ([0x4E, 0x45, 0x53, 0x1B] ++ List.replicate 12 0x00) = some .invalidRomFormat := by decide
theorem test_E10_mapper_1 : loadError ([0x4E, 0x45, 0x53, 0x1A, 0x01, 0x00, 0x10, 0x00] ++ List.replicate 8 0x00) =
    some .unsupportedMapper := by decide
theorem test_E10_mapper_16 : loadError ([0x4E, 0x45, 0x53, 0x1A, 0x01, 0x00, 0x00, 0x10] ++ List.replicate 8 0x00) =
    some .unsupportedMapper := by decide
theorem test_LD1_short : loadError [0x4E, 0x45, 0x53, 0x1A, 0x01] = some .invalidRomFormat := by decide
theorem test_LD2_no_program_bank : loadError ([0x4E, 0x45, 0x53, 0x1A] ++ List.replicate 12 0x00) = some .invalidRomFormat := by decide
theorem test_LD3_short_banks : loadError ([0x4E, 0x45, 0x53, 0x1A, 0x01, 0x01, 0x00, 0x00] ++ List.replicate 40 0x00) =
    some .invalidRomFormat := by decide

/-- MapBanks on short stand-ins for the banks: LD4 and LD6, one bank twice or two banks. -/
theorem test_LD4_map_one_bank : let s := mapBanks { base with prgBanks := [[0x11, 0x22]], chrBanks := [[0x33]] }
    [s.peek 0x8000, s.peek 0x8001, s.peek 0xC000, s.peek 0xC001, s.vpeek 0, s.peek 0x2002] = [0x11, 0x22, 0x11, 0x22, 0x33, 0x80] := by
  decide
theorem test_LD6_map_two_banks : let s := mapBanks { base with prgBanks := [[0x11], [0x22]] }
    [s.peek 0x8000, s.peek 0xC000, s.vpeek 0] = [0x11, 0x22, 0x00] := by decide

/-! ### Witnesses: for each obligation with hypotheses, a concrete state and operands that meet them, at boundary values -/

/-- An outcome is a next state. -/
def completes (o : Host.Outcome State Fault Refusal) : Bool := after o fun _ => true

theorem exists_next {o : Host.Outcome State Fault Refusal} (h : completes o = true) : ∃ t, o = .next t := by
  cases o with
  | next t => exact ⟨t, rfl⟩
  | fault f => cases h
  | refused r => cases h

theorem exists_ok {r : Res Unit} (h : done r (fun _ => true) = true) : ∃ t, r = .ok () t := by
  cases r with
  | ok a t => exact ⟨t, rfl⟩
  | raise f t => cases h

/-- `base` meets the invariant. -/
theorem base_inv : base.Inv := by
  refine ⟨rfl, rfl, rfl, rfl, rfl, rfl, by decide, by decide, ?_, ?_⟩ <;> intro b hb <;> cases hb

theorem witness_DecodedBytesAreTheEncoding : decode [0x6C, 0xFF, 0x02, 0xEA] = .ok (.jmpInd 0x02FF, [0xEA]) := rfl

theorem witness_UnlistedOpcodesAreUnknown : (∀ i : Instr, i.entry.opcode ≠ 0xFF) ∧ ¬ ∀ i : Instr, i.entry.opcode ≠ 0x00 :=
  ⟨by intro i; cases i <;> exact of_decide_eq_true rfl, fun h => h .brk rfl⟩

/-- A three-byte instruction whose last byte is the last byte of the bus. -/
theorem witness_StepRunsDecodedInstruction :
    let s := placeBytes 0xFFFD [0x4C, 0x34, 0x12] { base with pc := 0xFFFD }
    s.fault = none ∧ readBytes (encode (.jmpAbs 0x1234)).length s.pc s = .ok (encode (.jmpAbs 0x1234)) s := ⟨rfl, rfl⟩

theorem witness_FetchReadsTheStoredBytes : 0xFFFD + 3 ≤ 0x10000 ∧ (∀ k, k < 3 → portAt (canon (0xFFFD + k)) = none) ∧
    0x4013 + 3 ≤ 0x10000 ∧ ∀ k, k < 3 → portAt (canon (0x4013 + k)) = none := by decide

theorem witness_StepStops_recorded_fault : ∃ f, ({ base with fault := some (.stackOverflow 0) } : State).fault = some f := ⟨_, rfl⟩
theorem witness_StepStops_pc_off_the_bus : base.fault = none ∧ ((-1 : Int) < 0 ∨ (0xFFFF : Int) < -1) ∧
    ((0x10000 : Int) < 0 ∨ (0xFFFF : Int) < 0x10000) := by decide
theorem witness_StepStops_unknown_opcode :
    let s := placeBytes 0xFFFF [0xFF] { base with pc := 0xFFFF }
    s.fault = none ∧ s.pc = (0xFFFF : Nat) ∧ 0xFFFF ≤ 0xFFFF ∧ portAt (canon 0xFFFF) = none ∧
      ∀ i : Instr, i.entry.opcode ≠ s.peek 0xFFFF :=
  ⟨rfl, rfl, by decide, rfl, by intro i; cases i <;> exact of_decide_eq_true rfl⟩

theorem witness_StepStops_operand_off_the_bus :
    (let s := placeBytes 0xFFFF [0xA9] { base with pc := 0xFFFF }
     s.fault = none ∧ s.pc = (0xFFFF : Nat) ∧ s.peek 0xFFFF = (Instr.ldaImm 0).entry.opcode ∧ 0x10000 < 0xFFFF + (encode (.ldaImm 0)).length) ∧
    (let s := placeBytes 0xFFFE [0xAD] { base with pc := 0xFFFE }
     s.fault = none ∧ s.pc = (0xFFFE : Nat) ∧ s.peek 0xFFFE = (Instr.ldaAbs 0).entry.opcode ∧ 0x10000 < 0xFFFE + (encode (.ldaAbs 0)).length) := by
  decide

/-- A step that completes from a state that meets the invariant: STA $2007 at 0x8000. -/
theorem witness_InvariantKeptByStep : (placeBytes 0x8000 [0x8D, 0x07, 0x20] base).Inv ∧
    ∃ t, step (placeBytes 0x8000 [0x8D, 0x07, 0x20] base) = .next t :=
  ⟨inv_setCell (inv_setCell (inv_setCell base_inv (by decide) _) (by decide) _) (by decide) _, exists_next (by decide)⟩

theorem witness_InvariantHoldsAtReset : Params.wf { Params.default with
    resetPc := 0xFFFF, vblankCycles := some 0, cpuInit := [(0xFFFF, 0x01)], videoInit := [(0xFFFF, 0x01)], spriteInit := [(0xFF, 0x01)] } = true := by
  decide

/-- Steps that leave PC at either end of its range: BMI -128 at 0 and BMI +127 at 0xFFFE. -/
theorem witness_PcAfterStepInRange : after (run { base with pc := 0, status := 0x80 } [0x30, 0x80]) (fun t => t.pc == -126) = true ∧
    after (run { base with pc := 0xFFFE, status := 0x80 } [0x30, 0x7F]) (fun t => t.pc == 0x1007F) = true := by decide

/-- Steps that take 2 and 7 cycles. -/
theorem witness_CyclesOfAStep : after (run base [0xEA]) (fun t => t.cyc == 2) = true ∧
    after (run { base with x := 1 } [0x1E, 0xFF, 0x02]) (fun t => t.cyc == 7) = true := by decide

theorem witness_Faults_address : faultsWith (exec (.ldaAbsX 0xFFFF) { base with x := 1 }) (.addressOutOfRange 0x10000) = true := by decide
theorem witness_Faults_overflow : faultsWith (exec .pha base) (.stackOverflow 0x8000) = true ∧
    faultsWith (exec (.jsr 0) { base with stk := 1 }) (.stackOverflow 0x8000) = true := by decide
theorem witness_Faults_underflow : faultsWith (exec .pla { base with stk := 0xFF }) (.stackUnderflow 0x8000) = true ∧
    faultsWith (exec .rti { base with stk := 0xFD }) (.stackUnderflow 0x8000) = true := by decide

/-- A taken branch, and a page cross with an extra cycle. -/
theorem witness_TickAccounts : (∃ s1, resolve (Instr.bne 0x05).operand (Instr.bne 0x05).entry.access base =
      .ok { value := some 0x05, ea := none, acc := false, crossed := false } s1) ∧
    (∃ t, exec (.bne 0x05) base = .next t) ∧
    (∃ s1, resolve (Instr.ldaAbsX 0x02FF).operand (Instr.ldaAbsX 0x02FF).entry.access { base with x := 1 } =
      .ok { value := some 0x00, ea := some 0x0300, acc := false, crossed := true } s1) ∧
    ∃ t, exec (.ldaAbsX 0x02FF) { base with x := 1 } = .next t :=
  ⟨⟨_, rfl⟩, ⟨_, rfl⟩, ⟨_, rfl⟩, ⟨_, rfl⟩⟩

theorem witness_PageCross : effectiveAddress (.absoluteX 0x12FF) { base with x := 0 } = some (0x12FF, false) ∧
    effectiveAddress (.absoluteX 0x12FF) { base with x := 1 } = some (0x1300, true) ∧
    effectiveAddress (.absoluteY 0xFFFF) { base with y := 0xFF } = some (0x100FE, true) ∧
    effectiveAddress (.indirectIndexed 0xFF) { cells [(0xFF, 0xFF), (0x00, 0x12)] base with y := 1 } = some (0x1300, true) ∧
    effectiveAddress (.zeroPageX 0xFF) { base with x := 1 } = some (0x00, false) := by decide

/-! For the read, store and read-modify-write families: an instruction of each mnemonic, its operand immediate or at the last address of
the bus. -/

theorem witness_Loads : (Instr.ldaImm 0x80).entry.mnemonic = .LDA ∧ (Instr.ldaImm 0x80).operand = .immediate 0x80 ∧
    (Instr.ldaAbsX 0xFFFE).entry.mnemonic = .LDA ∧
    effectiveAddress (Instr.ldaAbsX 0xFFFE).operand { base with x := 1 } = some (0xFFFF, false) ∧
    (Instr.ldxAbsY 0xFFFE).entry.mnemonic = .LDX ∧
    effectiveAddress (Instr.ldxAbsY 0xFFFE).operand { base with y := 1 } = some (0xFFFF, false) ∧
    (Instr.ldyAbs 0xFFFF).entry.mnemonic = .LDY ∧ effectiveAddress (Instr.ldyAbs 0xFFFF).operand base = some (0xFFFF, false) := by decide

theorem witness_Stores : (Instr.staAbsX 0xFFFE).entry.mnemonic = .STA ∧
    effectiveAddress (Instr.staAbsX 0xFFFE).operand { base with x := 1 } = some (0xFFFF, false) ∧ Writable 0xFFFF { base with x := 1 } ∧
    (Instr.stxAbs 0x3FFF).entry.mnemonic = .STX ∧ effectiveAddress (Instr.stxAbs 0x3FFF).operand base = some (0x3FFF, false) ∧
    canon 0x3FFF = 0x2007 ∧ Writable 0x3FFF { base with vaddrLatch := 0xFFFF } ∧
    (Instr.styAbs 0xFFFF).entry.mnemonic = .STY ∧ effectiveAddress (Instr.styAbs 0xFFFF).operand base = some (0xFFFF, false) ∧
    Writable 0xFFFF base := by unfold Writable; decide

theorem witness_Arithmetic : (Instr.adcImm 0x80).entry.mnemonic = .ADC ∧ (Instr.adcImm 0x80).operand = .immediate 0x80 ∧
    (Instr.adcAbs 0xFFFF).entry.mnemonic = .ADC ∧ effectiveAddress (Instr.adcAbs 0xFFFF).operand base = some (0xFFFF, false) ∧
    (Instr.sbcImm 0x80).entry.mnemonic = .SBC ∧ (Instr.sbcImm 0x80).operand = .immediate 0x80 ∧
    (Instr.sbcAbs 0xFFFF).entry.mnemonic = .SBC ∧ effectiveAddress (Instr.sbcAbs 0xFFFF).operand base = some (0xFFFF, false) := by decide

theorem witness_Logical : (Instr.andImm 0x80).entry.mnemonic = .AND ∧ (Instr.andImm 0x80).operand = .immediate 0x80 ∧
    (Instr.oraAbs 0xFFFF).entry.mnemonic = .ORA ∧ effectiveAddress (Instr.oraAbs 0xFFFF).operand base = some (0xFFFF, false) ∧
    (Instr.eorZp 0xFF).entry.mnemonic = .EOR ∧ effectiveAddress (Instr.eorZp 0xFF).operand base = some (0xFF, false) ∧
    (Instr.bitAbs 0xFFFF).entry.mnemonic = .BIT ∧ effectiveAddress (Instr.bitAbs 0xFFFF).operand base = some (0xFFFF, false) := by decide

theorem witness_MemoryShifts : (Instr.aslAbs 0xFFFF).entry.mnemonic = .ASL ∧
    effectiveAddress (Instr.aslAbs 0xFFFF).operand base = some (0xFFFF, false) ∧ Writable 0xFFFF base ∧
    (Instr.lsrAbs 0x2007).entry.mnemonic = .LSR ∧ effectiveAddress (Instr.lsrAbs 0x2007).operand base = some (0x2007, false) ∧
    Writable 0x2007 { base with vaddrLatch := 0xFFFF } ∧
    (Instr.rolZp 0xFF).entry.mnemonic = .ROL ∧ effectiveAddress (Instr.rolZp 0xFF).operand base = some (0xFF, false) ∧ Writable 0xFF base ∧
    (Instr.rorZp 0x00).entry.mnemonic = .ROR ∧ effectiveAddress (Instr.rorZp 0x00).operand base = some (0x00, false) ∧
    Writable 0x00 base := by unfold Writable; decide

theorem witness_Compares : (Instr.cmpImm 0x80).entry.mnemonic = .CMP ∧ (Instr.cmpImm 0x80).operand = .immediate 0x80 ∧
    (Instr.cpxAbs 0xFFFF).entry.mnemonic = .CPX ∧ effectiveAddress (Instr.cpxAbs 0xFFFF).operand base = some (0xFFFF, false) ∧
    (Instr.cpyAbs 0xFFFF).entry.mnemonic = .CPY ∧ effectiveAddress (Instr.cpyAbs 0xFFFF).operand base = some (0xFFFF, false) := by decide

theorem witness_IncAndDec : (Instr.incAbs 0xFFFF).entry.mnemonic = .INC ∧
    effectiveAddress (Instr.incAbs 0xFFFF).operand base = some (0xFFFF, false) ∧ Writable 0xFFFF base ∧
    (Instr.decZpX 0xFF).entry.mnemonic = .DEC ∧ effectiveAddress (Instr.decZpX 0xFF).operand { base with x := 1 } = some (0x00, false) ∧
    Writable 0x00 { base with x := 1 } := by unfold Writable; decide

/-- Every branch, with its flag at the wanted value (b set) and not (b clear). -/
theorem witness_Branches :
    ([(.bcc 0x80, .BCC), (.bcs 0x80, .BCS), (.beq 0x80, .BEQ), (.bne 0x80, .BNE)] : List (Instr × Mnemonic)).all
      (fun e => e.1.entry.mnemonic == e.2 && e.1.operand == .relative 0x80) = true ∧
    ([(.bmi 0x7F, .BMI), (.bpl 0x7F, .BPL), (.bvc 0x7F, .BVC), (.bvs 0x7F, .BVS)] : List (Instr × Mnemonic)).all
      (fun e => e.1.entry.mnemonic == e.2 && e.1.operand == .relative 0x7F) = true ∧
    [Flag.C, .Z, .N, .V].all (fun f => base.flag f == false && State.flag f { base with status := 0xFF } == true) = true := by decide

theorem witness_Pushes : ({ base with stk := 0x01 } : State).stk ≠ 0 ∧ ({ base with stk := 0xFF } : State).stk ≠ 0 ∧ base.stk = 0 := by decide
theorem witness_Pulls : ({ base with stk := 0xFE } : State).stk ≠ 0xFF ∧ base.stk ≠ 0xFF ∧ ({ base with stk := 0xFF } : State).stk = 0xFF := by
  decide
theorem witness_Jsr : let s : State := { base with pc := 0xFFFD, stk := 0x02 }
    0 ≤ s.pc ∧ s.pc + 2 ≤ 0xFFFF ∧ 2 ≤ s.stk.toNat ∧ ({ s with stk := 0x01 } : State).stk.toNat < 2 := by decide
theorem witness_Rts : ({ base with stk := 0xFD } : State).stk.toNat ≤ 0xFD ∧ 0xFD < ({ base with stk := 0xFE } : State).stk.toNat := by decide
theorem witness_Brk : let s : State := { base with pc := 0xFFFF, stk := 0x03 }
    0 ≤ s.pc ∧ s.pc ≤ 0xFFFF ∧ 3 ≤ s.stk.toNat ∧ ({ s with stk := 0x02 } : State).stk.toNat < 3 := by decide
theorem witness_Rti : ({ base with stk := 0xFC } : State).stk.toNat ≤ 0xFC ∧ 0xFC < ({ base with stk := 0xFD } : State).stk.toNat := by decide

theorem witness_OperandsPastTheBus : effectiveAddress (Instr.staAbsY 0xFFFF).operand { base with y := 1 } = some (0x10000, true) ∧
    (Instr.staAbsY 0xFFFF).entry.mnemonic ≠ .JMP ∧ (Instr.staAbsY 0xFFFF).entry.mnemonic ≠ .JSR ∧
    effectiveAddress (Instr.incAbs 0x3FFF).operand { base with vaddrLatch := 0x10000 } = some (0x3FFF, false) ∧ canon 0x3FFF = 0x2007 ∧
    0xFFFF < ({ base with vaddrLatch := 0x10000 } : State).vaddrLatch ∧ (Instr.incAbs 0x3FFF).entry.access = .readModifyWrite ∧
    (Instr.stxAbs 0x2007).entry.mnemonic ∈ [Mnemonic.STA, .STX, .STY] := by decide

/-- Completed instructions that change ACC, X, Y and STK. -/
theorem witness_WhoWritesTheRegisters : after (exec (.ldaImm 0x01) base) (fun t => t.acc != base.acc) = true ∧
    after (exec .inx base) (fun t => t.x != base.x) = true ∧ after (exec .dey base) (fun t => t.y != base.y) = true ∧
    after (exec .pla base) (fun t => t.stk != base.stk) = true := by decide

/-- Completed instructions that change each flag. -/
theorem witness_WhoWritesTheFlags : after (exec .sec base) (fun t => t.flag .C) = true ∧ after (exec .tax base) (fun t => t.flag .Z) = true ∧
    after (exec (.ldaImm 0x80) base) (fun t => t.flag .N) = true ∧ after (exec .sei base) (fun t => t.flag .I) = true ∧
    after (exec .sed base) (fun t => t.flag .D) = true ∧
    after (exec .brk { base with stk := 3 }) (fun t => t.flag .B) = true ∧
    after (exec .plp (cells [(0x0101, 0x20)] base)) (fun t => t.flag .U) = true ∧
    after (exec (.adcImm 0x40) { base with acc := 0x40 }) (fun t => t.flag .V) = true := by decide

/-- A store to each port with a behaviour, and a read-modify-write. -/
theorem witness_StoringForms : [(0x2004 : Addr), 0x2006, 0x2007, 0x4016, 0x4017, 0x0000, 0xFFFF].all (fun a =>
      completes (exec (.staAbs a) base) && effectiveAddress (Instr.staAbs a).operand base == some (a.toNat, false)) = true ∧
    (Instr.staAbs 0).entry.mnemonic ∈ [Mnemonic.STA, .STX, .STY] ∧ completes (exec (.incZp 0x10) base) = true ∧
    effectiveAddress (Instr.incZp 0x10).operand base = some (0x10, false) ∧ (Instr.incZp 0x10).entry.access = .readModifyWrite := by decide

theorem witness_OtherForms : completes (exec (.ldaZp 0x10) base) = true ∧ (Instr.ldaZp 0x10).entry.access ≠ .readModifyWrite ∧
    (Instr.ldaZp 0x10).entry.mnemonic ∉ [Mnemonic.STA, .STX, .STY] ∧ (Instr.ldaZp 0x10).entry.mnemonic ∉ [Mnemonic.PHA, .PHP, .JSR, .BRK] ∧
    completes (exec .pha { base with stk := 1 }) = true ∧ completes (exec (.jsr 0) { base with stk := 2 }) = true ∧
    completes (exec .brk { base with stk := 3 }) = true := by decide

theorem witness_InstructionsKeepTheDriversState : completes (exec .nop base) = true ∧
    completes (run { base with vblankCycles := some 0, stk := 0xFF } [0xEA]) = true := by decide

/-- A store at the other port, a jump to a port's address and a JMP Indirect whose pointer is at no port change no controller port. -/
theorem witness_InstructionsKeepTheDriversState_ports :
    completes (exec (.staAbs 0x4016) base) = true ∧ effectiveAddress (Instr.staAbs 0x4016).operand base = some (0x4016, false) ∧
    portAt (canon 0x4016) ≠ some .two ∧ completes (exec (.jmpAbs 0x4016) base) = true ∧
    (Instr.jmpAbs 0x4016).entry.mnemonic = .JMP ∧ completes (exec (.jmpInd 0x4015) base) = true ∧
    portAt (canon (0x4015 : Addr).toNat) ≠ some .two ∧
    portAt (canon (addressOf (lowByte (0x4015 : Addr) + 1) (highByte (0x4015 : Addr)))) ≠ some .two := by
  decide

/-- A store at a port, and a JMP Indirect with its pointer at no port, draw no button. -/
theorem witness_InstructionsKeepTheDriversState_draws :
    completes (exec (.staAbs 0x4016) base) = true ∧ (Instr.staAbs 0x4016).entry.access = .addressOnly ∧
    completes (exec (.ldaAbs 0x4015) base) = true ∧ portAt (canon 0x4015) = none ∧
    completes (exec (.jmpInd 0x4014) base) = true ∧ portAt (canon (0x4014 : Addr).toNat) = none ∧
    portAt (canon (addressOf (lowByte (0x4014 : Addr) + 1) (highByte (0x4014 : Addr)))) = none := by
  decide

theorem witness_PullUndoesPush : base.cpu.wf = true ∧ ({ base with stk := 0x01 } : State).stk ≠ 0 := by decide

theorem witness_ReturnsUndoTheirCalls : base.cpu.wf = true ∧ (0 : Int) ≤ 0xFFFD ∧ (0xFFFD : Int) + 2 ≤ 0xFFFF ∧
    completes (exec (.jsr 0x1234) { base with pc := 0xFFFD, stk := 2 }) = true ∧ (0xFFFF : Int) ≤ 0xFFFF ∧
    completes (exec .brk { base with pc := 0xFFFF, stk := 3 }) = true := by decide

theorem witness_MirrorsShareStorage : base.cpu.wf = true ∧ canon 0x1FFF = canon 0x07FF ∧ Writable 0x1FFF base ∧
    portAt (canon 0x07FF) = none ∧ canon 0x3FFF = canon 0x2007 ∧ Writable 0x3FFF base ∧ portAt (canon 0x2007) = none ∧
    canon 0x0000 ≠ canon 0x2004 ∧ canon 0x0000 ≠ 0x2003 ∧ done (memWrite (0x2004 : Nat) 0x55 base) (fun _ => true) = true := by
  unfold Writable; decide

theorem witness_MirrorsShareStorage_video : base.video.wf = true ∧ vcanon 0x3F10 = vcanon 0x3F00 ∧ vcanon 0x3FFC = vcanon 0x3F0C ∧
    vcanon 0x3EFF = vcanon 0x2EFF ∧ vcanon 0x2FFF ≠ vcanon 0x3EFF ∧ ((-1 : Int) < 0 ∨ (0xFFFF : Int) < -1) ∧
    ((0x10000 : Int) < 0 ∨ (0xFFFF : Int) < 0x10000) := by decide

theorem witness_CpuBusAliasGroups : canon 0x1FFF = 0x07FF ∧ canon 0x3FFF = 0x2000 + 7 ∧ canon 0x4000 = 0x4000 ∧ canon 0xFFFF = 0xFFFF := by
  decide

theorem witness_VideoBusAliasGroups : vcanon 0x3EFF = 0x3EFF - 0x1000 ∧ vcanon 0x3FFF = 0x3F00 + 31 ∧ vcanon 0x3FF0 = 0x3F00 ∧
    vcanon 0x2EFF = 0x2EFF ∧ vcanon 0x4000 = 0x4000 := by decide

theorem witness_BusReadsByCell : ((-1 : Int) < 0 ∨ (0xFFFF : Int) < -1) ∧ ((0x10000 : Int) < 0 ∨ (0xFFFF : Int) < 0x10000) ∧
    portAt (canon 0x0000) = none ∧ portAt (canon 0xFFFF) = none ∧ portAt (canon 0x4016) = some .one ∧ portAt (canon 0x4017) = some .two := by
  decide

theorem witness_VideoPortWrites : canon 0x3FFC = 0x2004 ∧ canon 0x2006 = 0x2006 ∧ base.vaddrToggle = false ∧
    ({ base with vaddrToggle := true } : State).vaddrToggle = true ∧ canon 0x3FFF = 0x2007 ∧
    ({ base with vaddrLatch := 0xFFFF } : State).vaddrLatch ≤ 0xFFFF := by decide

theorem witness_StrobeResets : portAt (canon 0x4016) = some .one ∧ portAt (canon 0x4017) = some .two := by decide

theorem witness_CanonicalMemories : Memory.wf [(0, 1), (0xFFFF, 0xFF)] = true ∧
    ∀ a, Memory.read [(0, 1), (0xFFFF, 0xFF)] a = Memory.read [(0, 1), (0xFFFF, 0xFF)] a := ⟨by decide, fun _ => rfl⟩

theorem witness_DriverStepCounts : ({ base with vblankCount := 17 } : State).vblankCount + 3 ≤ 20 ∧
    20 < ({ base with vblankCount := 18 } : State).vblankCount + 3 ∧
    (let s : State := { base with vblankCount := 18, nmiInFlight := true, nmiCapturedSP := 0xFF, stk := 0xFC }
     (s.nmiInFlight && decide (s.stk ≠ s.nmiCapturedSP)) = true) := by decide

theorem witness_DriverStepEnters : let s : State := { base with vblankCount := 18, stk := 0x03, pc := 0xFFFF }
    20 < s.vblankCount + 3 ∧ (s.nmiInFlight && decide (s.stk ≠ s.nmiCapturedSP)) = false ∧ 0 ≤ s.pc ∧ s.pc ≤ 0xFFFF ∧ 3 ≤ s.stk.toNat ∧
    (({ s with pc := 0x10000 } : State).pc < 0 ∨ 0xFFFF < ({ s with pc := 0x10000 } : State).pc) ∧
    ({ s with stk := 0x02 } : State).stk.toNat < 3 := by decide

theorem witness_RtiEndsTheNmi : let s : State := { base with vblankCount := 18, stk := 0x03, pc := 0xFFFF }
    s.cpu.wf = true ∧ 20 < s.vblankCount + 3 ∧ (s.nmiInFlight && decide (s.stk ≠ s.nmiCapturedSP)) = false ∧ 20 ≤ 20 ∧
    ∃ t, driverStep 20 3 s = .ok () t := ⟨by decide, by decide, by decide, by decide, exists_ok (by decide)⟩

theorem witness_FinishAndStartNmi : let s : State := { base with nmiInFlight := true, nmiCapturedSP := 0xFF, stk := 0xFF }
    s.nmiInFlight = true ∧ s.stk = s.nmiCapturedSP ∧ (base.nmiInFlight = false ∨ base.stk ≠ base.nmiCapturedSP) := by decide

/-- A header with these bytes 4 to 7. -/
def header (prg chr flags6 flags7 : Byte) : List Byte := [0x4E, 0x45, 0x53, 0x1A, prg, chr, flags6, flags7] ++ List.replicate 8 0x00

theorem witness_LoadRejects : [(0x4E : Byte)].length < 16 ∧ List.take 4 (List.replicate 16 (0x00 : Byte)) ≠ [0x4E, 0x45, 0x53, 0x1A] ∧
    16 ≤ (header 1 0 0x10 0x00).length ∧ (header 1 0 0x10 0x00).take 4 = [0x4E, 0x45, 0x53, 0x1A] ∧
    16 * ((imageByte (header 1 0 0x10 0x00) 7).toNat / 16) + (imageByte (header 1 0 0x10 0x00) 6).toNat / 16 ≠ 0 ∧
    16 * ((imageByte (header 0 0 0x00 0x00) 7).toNat / 16) + (imageByte (header 0 0 0x00 0x00) 6).toNat / 16 = 0 ∧
    (imageByte (header 0 0 0x00 0x00) 4).toNat = 0 ∧ (header 1 0 0x00 0x00).length < 16 + 16384 := by decide

/-- An image with one program bank loads (LD4's shape without character data). -/
theorem witness_LoadMapsTheCartridge : Params.default.wf = true ∧
    ∃ s, load Params.default (header 1 0 0x00 0x00 ++ List.replicate 16384 0xEA) = .ok s := by
  refine ⟨by decide, ?_⟩
  have hl : (header 1 0 0x00 0x00 ++ List.replicate 16384 (0xEA : Byte)).length = 16400 := by
    rw [List.length_append, List.length_replicate]; rfl
  unfold load
  rw [if_neg (by rw [hl]; exact fun h => h.elim (by omega) (fun h => h rfl))]
  simp only
  rw [if_neg (by intro h; exact h rfl), if_neg (by intro h; cases h), if_neg (by rw [hl]; decide)]
  exact ⟨_, rfl⟩

theorem witness_SelfJump : let s := placeBytes 0xFFFD [0x4C, 0xFD, 0xFF] { base with pc := 0xFFFD }
    s.fault = none ∧ s.vblankCycles = none ∧ s.pc = ((0xFFFD : Addr).toNat : Int) ∧ (0xFFFD : Addr).toNat + 2 ≤ 0xFFFF ∧
    (∀ k, k < 3 → portAt (canon ((0xFFFD : Addr).toNat + k)) = none) ∧ s.peek 0xFFFD = 0x4C ∧
    s.peek (0xFFFD + 1) = lowByte 0xFFFD ∧ s.peek (0xFFFD + 2) = highByte 0xFFFD := by decide

end Sys2Proof.Tests
end

/-! SUPPORT. One inversion of the 56 effects (`effect_cases`): which registers and flags each mnemonic may write, and which
shared operation it runs. -/

namespace Sys2Proof.Machine

/-! ### The writer tables (10_state.md R31, R32, R36) -/

def accWriters : List Mnemonic := [.LDA, .ADC, .SBC, .AND, .ORA, .EOR, .PLA, .TXA, .TYA]
def xWriters : List Mnemonic := [.LDX, .INX, .DEX, .TAX, .TSX]
def yWriters : List Mnemonic := [.LDY, .INY, .DEY, .TAY]
def stkWriters : List Mnemonic := [.TXS, .PHA, .PHP, .PLA, .PLP, .JSR, .RTS, .BRK, .RTI]

def flagWriters : Flag → List Mnemonic
  | .C => [.ADC, .SBC, .ASL, .LSR, .ROL, .ROR, .CMP, .CPX, .CPY, .CLC, .SEC, .PLP, .RTI]
  | .Z | .N =>
    [.ADC, .SBC, .AND, .ORA, .EOR, .BIT, .ASL, .LSR, .ROL, .ROR, .CMP, .CPX, .CPY, .INC, .DEC, .INX, .INY, .DEX, .DEY,
      .LDA, .LDX, .LDY, .TAX, .TAY, .TSX, .TXA, .TYA, .PLA, .PLP, .RTI]
  | .I => [.SEI, .CLI, .BRK, .PLP, .RTI]
  | .D => [.SED, .CLD, .PLP, .RTI]
  | .B => [.BRK, .PLP, .RTI]
  | .U => [.PLP, .RTI]
  | .V => [.ADC, .SBC, .BIT, .CLV, .PLP, .RTI]

/-- The mnemonics that store at their effective address, those of accumulator shifts among them. -/
def storers : List Mnemonic := [.STA, .STX, .STY, .ASL, .LSR, .ROL, .ROR, .INC, .DEC]

def jumps : List Mnemonic := [.JMP, .JSR]

def branches : List Mnemonic := [.BCC, .BCS, .BEQ, .BNE, .BMI, .BPL, .BVC, .BVS]

/-- From `s` to `t` a register or flag differs only where mnemonic `m` is one of its writers; `accOperand` says that the
operand is the accumulator. -/
structure OnlyWrites (m : Mnemonic) (accOperand : Bool) (s t : State) : Prop where
  acc : t.acc = s.acc ∨ accOperand = true ∨ m ∈ accWriters
  x : t.x = s.x ∨ m ∈ xWriters
  y : t.y = s.y ∨ m ∈ yWriters
  stk : t.stk = s.stk ∨ m ∈ stkWriters
  flag : ∀ f, t.flag f = s.flag f ∨ m ∈ flagWriters f

/-- `OnlyWrites`, and nothing but ACC, X, Y, STK and STATUS differs. -/
structure RegisterUpdate (m : Mnemonic) (accOperand : Bool) (s t : State) : Prop extends OnlyWrites m accOperand s t where
  rest : t = { s with acc := t.acc, x := t.x, y := t.y, stk := t.stk, status := t.status }

theorem eq_or_trans {α : Type} {a b c : α} {p : Prop} (h1 : b = a ∨ p) (h2 : c = b ∨ p) : c = a ∨ p :=
  h2.elim (fun e => h1.imp_left e.trans) .inr

section
variable {m : Mnemonic} {b : Bool} {s t u : State}

theorem OnlyWrites.trans (h1 : OnlyWrites m b s t) (h2 : OnlyWrites m b t u) : OnlyWrites m b s u where
  acc := eq_or_trans h1.acc h2.acc
  x := eq_or_trans h1.x h2.x
  y := eq_or_trans h1.y h2.y
  stk := eq_or_trans h1.stk h2.stk
  flag f := eq_or_trans (h1.flag f) (h2.flag f)

/-- Registers and STATUS the same: whatever `m` writes. -/
theorem OnlyWrites.of_eq (ha : t.acc = s.acc) (hx : t.x = s.x) (hy : t.y = s.y) (hk : t.stk = s.stk ∨ m ∈ stkWriters)
    (hst : t.status = s.status) : OnlyWrites m b s t where
  acc := .inl ha
  x := .inl hx
  y := .inl hy
  stk := hk
  flag f := .inl (congrArg (getFlag f) hst)

theorem OnlyWrites.of_regs (h : Regs s t) : OnlyWrites m b s t := .of_eq h.acc h.x h.y (.inl h.stk) h.status

theorem onlyWrites_memWrite {a : Int} {v : Byte} {n : Unit} (h : memWrite a v s = .ok n t) : OnlyWrites m b s t := by
  rw [memWrite_eq] at h
  split_ifs at h
  · simp at h
  · cases h; constructor <;> simp [State.flag]
  · simp at h

theorem onlyWrites_push {pc0 : Int} {v : Byte} {n : Unit} (hm : m ∈ stkWriters) (h : push pc0 v s = .ok n t) :
    OnlyWrites m b s t := by
  rw [push_eq] at h
  split_ifs at h
  · simp at h
  · cases h; exact .of_eq rfl rfl rfl (.inr hm) rfl

theorem onlyWrites_pull {pc0 : Int} {v : Byte} (hm : m ∈ stkWriters) (h : pull pc0 s = .ok v t) : OnlyWrites m b s t := by
  rw [pull_eq] at h
  split_ifs at h
  · simp at h
  · cases h; exact .of_eq rfl rfl rfl (.inr hm) rfl

/-! ### Register updates, one rule per register -/

theorem RegisterUpdate.refl : RegisterUpdate m b s s where
  acc := .inl rfl
  x := .inl rfl
  y := .inl rfl
  stk := .inl rfl
  flag _ := .inl rfl
  rest := rfl

theorem RegisterUpdate.setAcc (h : RegisterUpdate m b s t) {v : Byte} (hm : b = true ∨ m ∈ accWriters) :
    RegisterUpdate m b s { t with acc := v } :=
  { h with acc := .inr hm, rest := by rw [h.rest] }

theorem RegisterUpdate.setX (h : RegisterUpdate m b s t) {v : Byte} (hm : m ∈ xWriters) :
    RegisterUpdate m b s { t with x := v } :=
  { h with x := .inr hm, rest := by rw [h.rest] }

theorem RegisterUpdate.setY (h : RegisterUpdate m b s t) {v : Byte} (hm : m ∈ yWriters) :
    RegisterUpdate m b s { t with y := v } :=
  { h with y := .inr hm, rest := by rw [h.rest] }

theorem RegisterUpdate.setStk (h : RegisterUpdate m b s t) {v : Byte} (hm : m ∈ stkWriters) :
    RegisterUpdate m b s { t with stk := v } :=
  { h with stk := .inr hm, rest := by rw [h.rest] }

theorem RegisterUpdate.setStatus (h : RegisterUpdate m b s t) {v : Byte} (hm : ∀ f, m ∈ flagWriters f) :
    RegisterUpdate m b s { t with status := v } :=
  { h with flag := fun f => .inr (hm f), rest := by rw [h.rest] }

theorem RegisterUpdate.setFlag (h : RegisterUpdate m b s t) {f : Flag} {v : Bool} (hm : m ∈ flagWriters f) :
    RegisterUpdate m b s (t.setFlag f v) where
  acc := h.acc
  x := h.x
  y := h.y
  stk := h.stk
  flag g := by
    rw [flag_setFlag]
    split
    next hg => exact .inr (hg ▸ hm)
    next => exact h.flag g
  rest := by rw [h.rest]; rfl

theorem RegisterUpdate.setZN (h : RegisterUpdate m b s t) {v : Byte} (hm : m ∈ flagWriters .Z) :
    RegisterUpdate m b s (t.setZN v) :=
  (h.setFlag (f := .Z) hm).setFlag (f := .N) hm

theorem RegisterUpdate.kept (h : RegisterUpdate m b s t) : Kept s t := by rw [h.rest]; constructor <;> rfl
theorem RegisterUpdate.ports (h : RegisterUpdate m b s t) : PortsKept s t := by rw [h.rest]; constructor <;> rfl
theorem RegisterUpdate.pc_eq (h : RegisterUpdate m b s t) : t.pc = s.pc := by rw [h.rest]

end

/-! ### The effects -/

/-- What an effect that completes can have done, one case per shared operation: the state and whether it is a taken branch. -/
inductive EffectCase (m : Mnemonic) (site : Site) (res : Addressing) (s : State) : Bool → State → Prop
  | registers {t : State} (ht : RegisterUpdate m res.acc s t) : EffectCase m site res s false t
  | branchTaken (hm : m ∈ branches) (d : Byte) : EffectCase m site res s true { s with pc := s.pc + sext8 d }
  | store {ea : Nat} {v : Byte} {u t : State} (hm : m ∈ storers) (hea : res.ea = some ea) (hu : RegisterUpdate m res.acc s u)
      (ht : memWrite ea v u = .ok () t) : EffectCase m site res s false t
  | push {v : Byte} {t : State} (hm : m ∈ stkWriters) (ht : push site.pc0 v s = .ok () t) : EffectCase m site res s false t
  | pull {v : Byte} {u t : State} (hm : m ∈ stkWriters) (hu : pull site.pc0 s = .ok v u) (ht : RegisterUpdate m res.acc u t) :
      EffectCase m site res s false t
  | jump {ea : Nat} (hm : m ∈ jumps) (hea : res.ea = some ea) : EffectCase m site res s false { s with pc := ea }
  | call {ea : Nat} {ret : Int} {u : State} (hm : m ∈ jumps) (hea : res.ea = some ea)
      (hstk : m ∈ stkWriters) (hu : pushAddress site.pc0 ret s = .ok () u) : EffectCase m site res s false { u with pc := ea }
  | ret {target : Nat} {u : State} (hm : m ∈ stkWriters) (hu : pullAddress site.pc0 s = .ok target u) :
      EffectCase m site res s false { u with pc := (target : Int) + 1 }
  | interrupt {ret : Int} {t : State} (hm : m = .BRK) (ht : enterInterrupt site.pc0 ret true 0xFFFE s = .ok () t) :
      EffectCase m site res s false t
  | returned {t : State} (hm : m = .RTI) (ht : returnFromInterrupt site.pc0 s = .ok () t) : EffectCase m site res s false t

section
variable {m : Mnemonic} {site : Site} {res : Addressing} {s t : State} {taken : Bool}

theorem branch_cases {f : Flag} {want : Bool} (hm : m ∈ branches) (h : branch f want site res s = .ok taken t) :
    EffectCase m site res s taken t := by
  obtain ⟨d, -, h⟩ := withValue_ok h
  split at h
  · cases h; exact .branchTaken hm d
  · cases h; exact .registers .refl

theorem storeAt_cases {v : Byte} (hm : m ∈ storers) (h : storeAt site res v s = .ok taken t) :
    EffectCase m site res s taken t := by
  obtain ⟨ea, hea, h⟩ := withEa_ok h
  obtain ⟨_, _, ht, h⟩ := bind_eq_ok h
  cases h
  exact .store hm hea .refl ht

theorem stepMemory_cases {d : Int} (hm : m ∈ storers) (hz : m ∈ flagWriters .Z) (h : stepMemory d site res s = .ok taken t) :
    EffectCase m site res s taken t := by
  obtain ⟨v, -, h⟩ := withValue_ok h
  obtain ⟨ea, hea, h⟩ := withEa_ok h
  obtain ⟨_, _, ht, h⟩ := bind_eq_ok h
  cases h
  exact .store hm hea (RegisterUpdate.refl.setZN hz) ht

theorem shiftOp_cases {kind : Byte → Bool → Byte × Bool} (hm : m ∈ storers) (hc : m ∈ flagWriters .C) (hz : m ∈ flagWriters .Z)
    (h : shiftOp kind site res s = .ok taken t) : EffectCase m site res s taken t := by
  obtain ⟨v, -, h⟩ := withValue_ok h
  have hu : RegisterUpdate m res.acc s ((s.setFlag .C (kind v (s.flag .C)).2).setZN (kind v (s.flag .C)).1) :=
    (RegisterUpdate.refl.setFlag hc).setZN hz
  dsimp only at h
  split at h
  next hacc => cases h; exact .registers (hu.setAcc (.inl hacc))
  next =>
    obtain ⟨ea, hea, h⟩ := withEa_ok h
    obtain ⟨_, _, ht, h⟩ := bind_eq_ok h
    cases h
    exact .store hm hea hu ht

theorem addCore_update {b : Bool} {v w : Byte} {c : Bool} (ha : m ∈ accWriters) (hc : m ∈ flagWriters .C)
    (hv : m ∈ flagWriters .V) (hz : m ∈ flagWriters .Z) : RegisterUpdate m b s (addCore v w c s) :=
  (((RegisterUpdate.refl.setFlag hc).setFlag hv).setAcc (.inr ha)).setZN hz

theorem compareFlags_update {b : Bool} {v w : Byte} (hc : m ∈ flagWriters .C) (hz : m ∈ flagWriters .Z) :
    RegisterUpdate m b s (compareFlags v w s) :=
  ((RegisterUpdate.refl.setFlag hc).setFlag hz).setFlag (f := .N) hz

/-- The one inversion of the effects: every other lemma about what an instruction can do to the state goes through its cases. -/
theorem effect_cases (h : effectOf m site res s = .ok taken t) : EffectCase m site res s taken t := by
  cases m
  case LDA | AND | ORA | EOR =>
    obtain ⟨v, -, h⟩ := withValue_ok h
    cases h
    exact .registers ((RegisterUpdate.refl.setAcc (.inr (by decide))).setZN (by decide))
  case TXA | TYA => cases h; exact .registers ((RegisterUpdate.refl.setAcc (.inr (by decide))).setZN (by decide))
  case LDX =>
    obtain ⟨v, -, h⟩ := withValue_ok h
    cases h
    exact .registers ((RegisterUpdate.refl.setX (by decide)).setZN (by decide))
  case TAX | TSX | INX | DEX => cases h; exact .registers ((RegisterUpdate.refl.setX (by decide)).setZN (by decide))
  case LDY =>
    obtain ⟨v, -, h⟩ := withValue_ok h
    cases h
    exact .registers ((RegisterUpdate.refl.setY (by decide)).setZN (by decide))
  case TAY | INY | DEY => cases h; exact .registers ((RegisterUpdate.refl.setY (by decide)).setZN (by decide))
  case ADC | SBC =>
    obtain ⟨v, -, h⟩ := withValue_ok h
    cases h
    exact .registers (addCore_update (by decide) (by decide) (by decide) (by decide))
  case BIT =>
    obtain ⟨v, -, h⟩ := withValue_ok h
    cases h
    exact .registers (((RegisterUpdate.refl.setFlag (by decide)).setFlag (by decide)).setFlag (by decide))
  case CMP | CPX | CPY =>
    obtain ⟨v, -, h⟩ := withValue_ok h
    cases h
    exact .registers (compareFlags_update (by decide) (by decide))
  case CLC | SEC | CLI | SEI | CLD | SED | CLV => cases h; exact .registers (RegisterUpdate.refl.setFlag (by decide))
  case TXS => cases h; exact .registers (RegisterUpdate.refl.setStk (by decide))
  case NOP => cases h; exact .registers .refl
  case STA | STX | STY => exact storeAt_cases (by decide) h
  case INC | DEC => exact stepMemory_cases (by decide) (by decide) h
  case ASL | LSR | ROL | ROR => exact shiftOp_cases (by decide) (by decide) (by decide) h
  case BCC | BCS | BEQ | BNE | BMI | BPL | BVC | BVS => exact branch_cases (by decide) h
  case PHA | PHP =>
    obtain ⟨_, _, ht, h⟩ := bind_eq_ok h
    cases h
    exact .push (by decide) ht
  case PLA =>
    obtain ⟨v, u, hu, h⟩ := bind_eq_ok h
    cases h
    exact .pull (by decide) hu ((RegisterUpdate.refl.setAcc (.inr (by decide))).setZN (by decide))
  case PLP =>
    obtain ⟨v, u, hu, h⟩ := bind_eq_ok h
    cases h
    exact .pull (by decide) hu (RegisterUpdate.refl.setStatus fun f => by cases f <;> decide)
  case JMP =>
    obtain ⟨ea, hea, h⟩ := withEa_ok h
    cases h
    exact .jump (by decide) hea
  case JSR =>
    obtain ⟨ea, hea, h⟩ := withEa_ok h
    obtain ⟨_, u, hu, h⟩ := bind_eq_ok h
    cases h
    exact .call (by decide) hea (by decide) hu
  case RTS =>
    obtain ⟨target, u, hu, h⟩ := bind_eq_ok h
    cases h
    exact .ret (by decide) hu
  case BRK =>
    obtain ⟨_, _, ht, h⟩ := bind_eq_ok h
    cases h
    exact .interrupt rfl ht
  case RTI =>
    obtain ⟨_, _, ht, h⟩ := bind_eq_ok h
    cases h
    exact .returned rfl ht

end
end Sys2Proof.Machine

/-! SUPPORT. What an effect that completes leaves alone, read off `effect_cases`: the registers and flags, the accounting and
driver state, the controller ports. -/

namespace Sys2Proof.Machine

section
variable {m : Mnemonic} {site : Site} {res : Addressing} {s t : State} {taken : Bool}

/-! ### Registers and flags -/

theorem onlyWrites_pushAddress {b : Bool} {pc0 v : Int} {n : Unit} (hm : m ∈ stkWriters)
    (h : pushAddress pc0 v s = .ok n t) : OnlyWrites m b s t := by
  obtain ⟨_, u, h1, h⟩ := bind_eq_ok h
  exact (onlyWrites_push hm h1).trans (onlyWrites_push hm h)

theorem onlyWrites_pullAddress {b : Bool} {pc0 : Int} {n : Nat} (hm : m ∈ stkWriters)
    (h : pullAddress pc0 s = .ok n t) : OnlyWrites m b s t := by
  obtain ⟨_, u, h1, h⟩ := bind_eq_ok h
  obtain ⟨_, u', h2, h⟩ := bind_eq_ok h
  cases h
  exact (onlyWrites_pull hm h1).trans (onlyWrites_pull hm h2)

theorem regs_memRead16 {a : Int} {n : Nat} (h : memRead16 a s = .ok n t) : Regs s t := by
  obtain ⟨_, u, h1, h⟩ := bind_eq_ok h
  obtain ⟨_, u', h2, h⟩ := bind_eq_ok h
  cases h
  exact (regs_memRead h1).trans (regs_memRead h2)

theorem onlyWrites_setPc {b : Bool} {n : Int} : OnlyWrites m b s { s with pc := n } := .of_eq rfl rfl rfl (.inl rfl) rfl

theorem onlyWrites_brk {b : Bool} {pc0 ret vector : Int} {n : Unit} (h : enterInterrupt pc0 ret true vector s = .ok n t) :
    OnlyWrites .BRK b s t := by
  obtain ⟨_, u1, h1, h⟩ := bind_eq_ok h
  obtain ⟨_, u2, h2, h⟩ := bind_eq_ok h
  obtain ⟨_, u3, h3, h⟩ := bind_eq_ok h
  cases h
  have hpushes : OnlyWrites .BRK b s u2 := (onlyWrites_pushAddress (by decide) h1).trans (onlyWrites_push (by decide) h2)
  have hflags : OnlyWrites .BRK b u2 ((u2.setFlag .B true).setFlag .I true) :=
    ((RegisterUpdate.refl.setFlag (by decide)).setFlag (by decide)).toOnlyWrites
  exact ((hpushes.trans hflags).trans (.of_regs (regs_memRead16 h3))).trans onlyWrites_setPc

theorem onlyWrites_rti {b : Bool} {pc0 : Int} {n : Unit} (h : returnFromInterrupt pc0 s = .ok n t) :
    OnlyWrites .RTI b s t := by
  obtain ⟨st, u1, h1, h⟩ := bind_eq_ok h
  obtain ⟨_, u2, h2, h⟩ := bind_eq_ok h
  cases h
  have hstatus : OnlyWrites .RTI b u1 { u1 with status := st } :=
    (RegisterUpdate.refl.setStatus fun f => by cases f <;> decide).toOnlyWrites
  exact (((onlyWrites_pull (by decide) h1).trans hstatus).trans (onlyWrites_pullAddress (by decide) h2)).trans onlyWrites_setPc

theorem EffectCase.onlyWrites (h : EffectCase m site res s taken t) : OnlyWrites m res.acc s t := by
  cases h with
  | registers ht => exact ht.toOnlyWrites
  | branchTaken => exact onlyWrites_setPc
  | store _ _ hu ht => exact hu.toOnlyWrites.trans (onlyWrites_memWrite ht)
  | push hm ht => exact onlyWrites_push hm ht
  | pull hm hu ht => exact (onlyWrites_pull hm hu).trans ht.toOnlyWrites
  | jump => exact onlyWrites_setPc
  | call _ _ hstk hu => exact (onlyWrites_pushAddress hstk hu).trans onlyWrites_setPc
  | ret hm hu => exact (onlyWrites_pullAddress hm hu).trans onlyWrites_setPc
  | interrupt hm ht => subst hm; exact onlyWrites_brk ht
  | returned hm ht => subst hm; exact onlyWrites_rti ht

/-! ### The accounting and driver state -/

theorem kept_setPc {n : Int} : Kept s { s with pc := n } := by constructor <;> rfl

theorem kept_return {pc0 : Int} {n : Unit} (h : returnFromInterrupt pc0 s = .ok n t) : Kept s t := by
  obtain ⟨st, u1, h1, h⟩ := bind_eq_ok h
  obtain ⟨_, u2, h2, h⟩ := bind_eq_ok h
  cases h
  have hstatus : Kept u1 { u1 with status := st } := by constructor <;> rfl
  exact (((kept_pull h1).trans hstatus).trans (kept_pullAddress h2)).trans kept_setPc

theorem EffectCase.kept (h : EffectCase m site res s taken t) : Kept s t := by
  cases h with
  | registers ht => exact ht.kept
  | branchTaken => exact kept_setPc
  | store _ _ hu ht => exact hu.kept.trans (kept_memWrite ht)
  | push _ ht => exact kept_push ht
  | pull _ hu ht => exact (kept_pull hu).trans ht.kept
  | jump => exact kept_setPc
  | call _ _ _ hu => exact (kept_pushAddress hu).trans kept_setPc
  | ret _ hu => exact (kept_pullAddress hu).trans kept_setPc
  | interrupt _ ht => exact kept_enter ht
  | returned _ ht => exact kept_return ht

/-! ### The controller ports -/

theorem ports_setPc {n : Int} : PortsKept s { s with pc := n } := ⟨rfl, rfl, rfl⟩

theorem ports_return {pc0 : Int} {n : Unit} (h : returnFromInterrupt pc0 s = .ok n t) : PortsKept s t := by
  obtain ⟨st, u1, h1, h⟩ := bind_eq_ok h
  obtain ⟨_, u2, h2, h⟩ := bind_eq_ok h
  cases h
  have hstatus : PortsKept u1 { u1 with status := st } := ⟨rfl, rfl, rfl⟩
  exact (((ports_pull h1).trans hstatus).trans (ports_pullAddress h2)).trans ports_setPc

/-- An effect reaches a controller port only by a store at its effective address. -/
theorem EffectCase.ports (h : EffectCase m site res s taken t) : PortsKept s t ∨
    (m ∈ storers ∧ ∃ ea, res.ea = some ea ∧ t.buttonDraws = s.buttonDraws ∧
      ∀ p, portAt (canon ea) ≠ some p → t.pad p = s.pad p) := by
  cases h with
  | registers ht => exact .inl ht.ports
  | branchTaken => exact .inl ports_setPc
  | @store ea _ _ _ hm hea hu ht =>
    obtain ⟨hdraws, hpad⟩ := ports_memWrite ht
    rw [Int.toNat_natCast] at hpad
    exact .inr ⟨hm, ea, hea, hdraws.trans hu.ports.draws, fun p hp => (hpad p hp).trans (hu.ports.pad p)⟩
  | push _ ht => exact .inl (ports_push ht)
  | pull _ hu ht => exact .inl ((ports_pull hu).trans ht.ports)
  | jump => exact .inl ports_setPc
  | call _ _ _ hu => exact .inl ((ports_pushAddress hu).trans ports_setPc)
  | ret _ hu => exact .inl ((ports_pullAddress hu).trans ports_setPc)
  | interrupt _ ht => exact .inl (ports_enter (n := 0xFFFE) (by decide) ht)
  | returned _ ht => exact .inl (ports_return ht)

end

/-! ### The whole instruction -/

section
variable {i : Instr} {s t : State}

/-- Only the Accumulator mode resolves to the accumulator. -/
theorem operand_of_resolve_acc {o : Operand} {access : Access} {res : Addressing} (h : resolve o access s = .ok res t)
    (hacc : res.acc = true) : o = .accumulator := by
  have hf : ∀ ea c u, fetchAt access ea c u = .ok res t → res.acc = false := by
    intro ea c u h
    cases access
    case addressOnly | none => cases h; rfl
    case read | readModifyWrite => obtain ⟨_, _, _, h⟩ := bind_eq_ok h; cases h; rfl
  cases o
  case accumulator => rfl
  case implicit | immediate | relative => cases h; cases hacc
  case indirect =>
    obtain ⟨_, _, _, h⟩ := bind_eq_ok h
    obtain ⟨_, _, _, h⟩ := bind_eq_ok h
    cases h
    cases hacc
  all_goals exact absurd (hf _ _ _ h) (by simp [hacc])

theorem exec_onlyWrites (h : exec i s = .next t) :
    OnlyWrites i.entry.mnemonic (decide (i.operand = .accumulator)) s t := by
  obtain ⟨res, s1, taken, s2, hres, heff, rfl⟩ := exec_next h
  have heffect := (effect_cases heff).onlyWrites
  have hacc : res.acc = true → decide (i.operand = .accumulator) = true := fun ha =>
    decide_eq_true (operand_of_resolve_acc hres ha)
  have hresolve : OnlyWrites i.entry.mnemonic (decide (i.operand = .accumulator)) s s1 := .of_regs (regs_resolve hres)
  exact (hresolve.trans { heffect with acc := heffect.acc.imp_right (Or.imp_left hacc) }).trans
    (.of_eq rfl rfl rfl (.inl rfl) rfl)

theorem exec_kept (h : exec i s = .next t) : t.nmiInFlight = s.nmiInFlight ∧ t.nmiCapturedSP = s.nmiCapturedSP ∧
    t.vblankCount = s.vblankCount ∧ t.prgBanks = s.prgBanks ∧ t.chrBanks = s.chrBanks ∧ t.fault = s.fault ∧
    t.vblankCycles = s.vblankCycles := by
  obtain ⟨res, s1, taken, s2, hres, heff, rfl⟩ := exec_next h
  have hk : Kept s s2 := (kept_resolve hres).trans (effect_cases heff).kept
  exact ⟨hk.nmi, hk.cap, hk.vb, hk.prg, hk.chr, hk.fault, hk.vbc⟩

/-- Only JMP has the Indirect mode. -/
theorem mnemonic_of_indirect {a : Addr} (h : i.operand = .indirect a) : i.entry.mnemonic = .JMP := by
  cases i <;> first | rfl | cases h

theorem access_of_jump (h : i.entry.mnemonic ∈ jumps) : i.entry.access = .addressOnly := by
  cases i <;> first | rfl | exact absurd h (of_decide_eq_false rfl)

/-- The address a storing instruction stores at is its effective address. -/
theorem storer_effectiveAddress {res : Addressing} {ea : Nat} (hm : i.entry.mnemonic ∈ storers)
    (hres : resolve i.operand i.entry.access s = .ok res t) (hea : res.ea = some ea) :
    ∃ crossed, effectiveAddress i.operand s = some (ea, crossed) := by
  refine (resolve_effectiveAddress hres hea).resolve_right ?_
  rintro ⟨a, ha⟩
  rw [mnemonic_of_indirect ha] at hm
  exact absurd hm (by decide)

/-- Controller port `p` is as before where neither an access at the effective address nor a pointer byte of Indirect is at it. -/
theorem exec_keeps_pad (h : exec i s = .next t) (p : Port)
    (hea : ∀ ea crossed, effectiveAddress i.operand s = some (ea, crossed) →
      i.entry.mnemonic = .JMP ∨ i.entry.mnemonic = .JSR ∨ portAt (canon ea) ≠ some p)
    (hind : ∀ a, i.operand = .indirect a → portAt (canon a.toNat) ≠ some p ∧
      portAt (canon (addressOf (lowByte a + 1) (highByte a))) ≠ some p) : t.pad p = s.pad p := by
  obtain ⟨res, s1, taken, s2, hres, heff, rfl⟩ := exec_next h
  have hread : s1.pad p = s.pad p := by
    refine (ports_resolve hres).1 p (fun ea c he => ?_) (fun a ha => by rw [addressOf_low_high]; exact hind a ha)
    rcases hea ea c he with hm | hm | hp
    · exact .inl (access_of_jump (by rw [hm]; decide))
    · exact .inl (access_of_jump (by rw [hm]; decide))
    · exact .inr (.inr hp)
  have hwrite : s2.pad p = s1.pad p := by
    rcases (effect_cases heff).ports with hk | ⟨hm, ea, he, -, hpad⟩
    · exact hk.pad p
    · obtain ⟨c, hc⟩ := storer_effectiveAddress hm hres he
      rcases hea ea c hc with hj | hj | hp
      · rw [hj] at hm; exact absurd hm (by decide)
      · rw [hj] at hm; exact absurd hm (by decide)
      · exact hpad p hp
  cases p <;> exact hwrite.trans hread

/-- No button is drawn where neither a read at the effective address nor a pointer byte of Indirect is at a port. -/
theorem exec_draws_nothing (h : exec i s = .next t)
    (hea : ∀ ea crossed, effectiveAddress i.operand s = some (ea, crossed) →
      i.entry.access = .addressOnly ∨ portAt (canon ea) = none)
    (hind : ∀ a, i.operand = .indirect a → portAt (canon a.toNat) = none ∧
      portAt (canon (addressOf (lowByte a + 1) (highByte a))) = none) : t.buttonDraws = s.buttonDraws := by
  obtain ⟨res, s1, taken, s2, hres, heff, rfl⟩ := exec_next h
  have hread : s1.buttonDraws = s.buttonDraws :=
    (ports_resolve hres).2 (fun ea c he => (hea ea c he).imp_right .inr)
      (fun a ha => by rw [addressOf_low_high]; exact hind a ha)
  have hwrite : s2.buttonDraws = s1.buttonDraws := by
    rcases (effect_cases heff).ports with hk | ⟨-, -, -, hdraws, -⟩
    · exact hk.draws
    · exact hdraws
  exact hwrite.trans hread

end

end Sys2Proof.Machine

/-! SUPPORT. The dictionary as the fetch uses it, and the one inversion of a fetch. -/

namespace Sys2Proof

/-! ### The dictionary -/

/-- `i` is the form's instruction with some operand bytes. -/
def Form.Covers : Form → Instr → Prop
  | .bare j, i => i = j
  | .byte f, i => ∃ b, i = f b
  | .word f, i => ∃ a, i = f a

/-- The operand bytes change nothing in a row of the table (30_encoding.md R113). -/
theorem forms_entry : ∀ f ∈ forms, ∀ i, f.Covers i → i.entry = f.entry := by
  simp only [forms, formsLoadStore, formsArithmetic, formsLogical, formsShift, formsCompare, formsIncDec, formsBranch,
    formsStack, formsFlagsTransfer, List.forall_mem_append, List.forall_mem_cons, Form.Covers, List.not_mem_nil,
    false_implies, implies_true, forall_eq, forall_exists_index, forall_eq_apply_imp_iff, and_true]
  repeat' apply And.intro
  all_goals intros; rfl

theorem decode_covers {op : Byte} {f : Form} {bs rest : List Byte} {i : Instr} (hd : dict op = some f)
    (h : decode (op :: bs) = .ok (i, rest)) : f.Covers i := by
  simp only [decode, hd] at h
  split at h
  next => contradiction
  next => cases h; cases ‹some f = _›; rfl
  next => cases h; cases ‹some f = _›; exact ⟨_, rfl⟩
  next => cases h; cases ‹some f = _›; exact ⟨_, rfl⟩
  next => cases h

/-- A decoded instruction is a row with the fetched opcode's entry. -/
theorem decode_entry {op : Byte} {f : Form} {bs rest : List Byte} {i : Instr} (hd : dict op = some f)
    (h : decode (op :: bs) = .ok (i, rest)) : i.entry = f.entry :=
  forms_entry f (dict_some hd).1 i (decode_covers hd h)

/-- Every instruction's opcode looks up its own row, in the mode of its operand. -/
theorem dictRow (i : Instr) : Laws.DictRow.Statement i := by
  cases i <;> exact ⟨_, rfl, rfl, rfl⟩

theorem operand_mode (i : Instr) : i.operand.mode = i.entry.mode := by
  obtain ⟨-, -, -, hmode⟩ := dictRow i
  exact hmode

theorem dict_eq_none {op : Byte} (h : ∀ i : Instr, i.entry.opcode ≠ op) : dict op = none :=
  Option.eq_none_iff_forall_ne_some.2 fun f hf => h f.sample (dict_some hf).2

theorem length_encode (i : Instr) : (encode i).length = i.entry.mode.length := by
  rw [← operand_mode, encode, List.length_cons]
  cases i.operand <;> rfl

end Sys2Proof

namespace Sys2Proof.Machine

/-! ### The fetch -/

theorem readBytes_ok : ∀ {n : Nat} {a : Int} {s t : State} {bs : List Byte}, readBytes n a s = .ok bs t →
    Kept s t ∧ t.pc = s.pc ∧ (0 < n → a + n ≤ 0x10000)
  | 0, _, s, _, _, h => by cases h; exact ⟨by constructor <;> rfl, rfl, fun h => absurd h (by decide)⟩
  | n + 1, a, s, t, bs, h => by
    obtain ⟨v, u, hv, h⟩ := bind_eq_ok h
    obtain ⟨vs, u', hvs, h⟩ := bind_eq_ok h
    cases h
    obtain ⟨hpc, -, hle⟩ := pc_memRead hv
    obtain ⟨hk, hpc', hle'⟩ := readBytes_ok hvs
    exact ⟨(kept_memRead hv).trans hk, hpc'.trans hpc, fun _ => by omega⟩

/-- Reading on past the end of the bus faults at 0x10000, whatever the reads before it moved. -/
theorem readBytes_past_end : ∀ {n : Nat} {a : Nat} {s : State}, a ≤ 0x10000 → 0x10000 < a + n →
    ∃ t, readBytes n a s = .raise (.addressOutOfRange 0x10000) t
  | 0, _, _, h, h' => absurd h' (by omega)
  | n + 1, a, s, h, h' => by
    unfold readBytes
    by_cases ha : a = 0x10000
    · subst ha; exact ⟨_, rfl⟩
    · obtain ⟨t, ht⟩ := readBytes_past_end (n := n) (a := a + 1) (s := (busRead a s).2) (by omega) (by omega)
      rw [memRead_nat a s (by omega), bind_ok, show (a : Int) + 1 = (a + 1 : Nat) by omega, ht, bind_raise]
      exact ⟨t, rfl⟩

/-- A completed fetch moves neither PC nor the accounting and driver state, and the whole instruction lies on the bus. -/
theorem fetch_ok {s t : State} {i : Instr} (h : fetch s = .ok i t) :
    Kept s t ∧ t.pc = s.pc ∧ 0 ≤ s.pc ∧ s.pc + i.operand.mode.length ≤ 0x10000 := by
  obtain ⟨op, u, hop, h⟩ := bind_eq_ok h
  obtain ⟨hpc, h0, hle⟩ := pc_memRead hop
  split at h
  next => simp at h
  next f hd =>
    obtain ⟨bs, u', hbs, h⟩ := bind_eq_ok h
    obtain ⟨hk, hpc', hle'⟩ := readBytes_ok hbs
    split at h
    next j rest hdec =>
      cases h
      refine ⟨(kept_memRead hop).trans hk, hpc'.trans hpc, h0, ?_⟩
      rw [operand_mode, decode_entry hd hdec]
      omega
    next => simp at h

/-! ### Where a step stops in its fetch -/

theorem step_of_fetch_raise {s t : State} {f : Fault} (hf : s.fault = none) (h : fetch s = .raise f t) : step s = .fault f := by
  simp only [step, hf, h]

theorem fetch_off_bus {s : State} (h : s.pc < 0 ∨ 0xFFFF < s.pc) : fetch s = raiseFault (.addressOutOfRange s.pc) s := by
  unfold fetch
  rw [memRead_eq, if_neg (by omega), bind_raiseFault]

theorem fetch_unknown {s : State} {n : Nat} (hpc : s.pc = n) (hn : n ≤ 0xFFFF) (hp : portAt (canon n) = none)
    (hop : ∀ i : Instr, i.entry.opcode ≠ s.peek n) : fetch s = raiseFault (.unknownOpcode (s.peek n) n) s := by
  unfold fetch
  rw [hpc, memRead_plain n s hn hp, bind_ok, dict_eq_none hop]

theorem fetch_past_end {s : State} {n : Nat} {i : Instr} (hpc : s.pc = n) (hn : n ≤ 0xFFFF) (hop : s.peek n = i.entry.opcode)
    (hlen : 0x10000 < n + (encode i).length) : ∃ t, fetch s = .raise (.addressOutOfRange 0x10000) t := by
  obtain ⟨f, hd, hf, -⟩ := dictRow i
  rw [length_encode, ← hf] at hlen
  have hmode : f.entry.mode.length ≤ 3 := by cases f.entry.mode <;> decide
  have hcanon := canon_high n (by omega)
  obtain ⟨t, ht⟩ := readBytes_past_end (n := f.entry.mode.length - 1) (a := n + 1) (s := s) (by omega) (by omega)
  refine ⟨t, ?_⟩
  unfold fetch
  rw [hpc, memRead_plain n s hn (portAt_eq_none _ (by omega)), bind_ok, hop, hd]
  show Res.bind _ _ = _
  rw [show (n : Int) + 1 = (n + 1 : Nat) by omega, ht, bind_raise]

end Sys2Proof.Machine

/-! SUPPORT. The driver step and the one inversion of `step`; where PC and CYC go in a step. -/

namespace Sys2Proof.Machine

/-! ### The driver step -/

/-- What no driver step changes. -/
structure DriverKept (s t : State) : Prop where
  cyc : t.cyc = s.cyc
  prg : t.prgBanks = s.prgBanks
  chr : t.chrBanks = s.chrBanks
  fault : t.fault = s.fault
  vbc : t.vblankCycles = s.vblankCycles

theorem DriverKept.refl (s : State) : DriverKept s s := ⟨rfl, rfl, rfl, rfl, rfl⟩

theorem DriverKept.trans {a b c : State} (h1 : DriverKept a b) (h2 : DriverKept b c) : DriverKept a c :=
  ⟨h2.cyc.trans h1.cyc, h2.prg.trans h1.prg, h2.chr.trans h1.chr, h2.fault.trans h1.fault, h2.vbc.trans h1.vbc⟩

theorem Kept.driverKept {s t : State} (h : Kept s t) : DriverKept s t := ⟨h.cyc, h.prg, h.chr, h.fault, h.vbc⟩

theorem finishNmi_keeps (s : State) : DriverKept s (finishNmi s) ∧ (finishNmi s).pc = s.pc := by
  unfold finishNmi
  split <;> exact ⟨⟨rfl, rfl, rfl, rfl, rfl⟩, rfl⟩

theorem pc_enter {pc0 ret vector : Int} {b : Bool} {s t : State} {n : Unit}
    (h : enterInterrupt pc0 ret b vector s = .ok n t) : 0 ≤ t.pc ∧ t.pc ≤ 0xFFFF := by
  obtain ⟨_, _, _, h⟩ := bind_eq_ok h
  obtain ⟨_, _, _, h⟩ := bind_eq_ok h
  obtain ⟨_, _, hread, h⟩ := bind_eq_ok h
  cases h
  obtain ⟨lo, _, _, hread⟩ := bind_eq_ok hread
  obtain ⟨hi, _, _, hread⟩ := bind_eq_ok hread
  cases hread
  exact ⟨Int.natCast_nonneg _, Int.ofNat_le.2 (addressOf_le lo hi)⟩

theorem driverStep_ok {threshold cycles : Nat} {s t : State} {n : Unit} (h : driverStep threshold cycles s = .ok n t) :
    DriverKept s t ∧ (t.pc = s.pc ∨ (0 ≤ t.pc ∧ t.pc ≤ 0xFFFF)) := by
  obtain ⟨hk, hpc⟩ := finishNmi_keeps s
  have hflip : DriverKept (finishNmi s) (flipVblank { finishNmi s with vblankCount := 0 }) := ⟨rfl, rfl, rfl, rfl, rfl⟩
  have hcount : DriverKept (finishNmi s) { finishNmi s with vblankCount := (finishNmi s).vblankCount + cycles } :=
    ⟨rfl, rfl, rfl, rfl, rfl⟩
  have hstart (u : State) : DriverKept u (startNmi u) := ⟨rfl, rfl, rfl, rfl, rfl⟩
  unfold driverStep at h
  dsimp only at h
  split at h
  · split at h
    · cases h; exact ⟨hk.trans hflip, .inl hpc⟩
    · unfold nmiEntry at h
      split at h
      · exact ⟨((hk.trans hflip).trans (hstart _)).trans (kept_enter h).driverKept, .inr (pc_enter h)⟩
      · simp at h
  · cases h; exact ⟨hk.trans hcount, .inl hpc⟩

theorem afterTick_ok {s u t : State} {n : Unit} (h : afterTick s u = .ok n t) :
    DriverKept u t ∧ (t.pc = u.pc ∨ (0 ≤ t.pc ∧ t.pc ≤ 0xFFFF)) := by
  unfold afterTick at h
  split at h
  · exact driverStep_ok h
  · cases h; exact ⟨.refl _, .inl rfl⟩

/-! ### The step -/

/-- The one inversion of a step: no fault was recorded, the fetch and the instruction completed, and so did what follows. -/
theorem step_next {s t : State} (h : step s = .next t) : s.fault = none ∧
    ∃ i s1 t1, fetch s = .ok i s1 ∧ exec i s1 = .next t1 ∧ afterTick s1 t1 = .ok () t := by
  unfold step at h
  split at h
  next => cases h
  next hf =>
    refine ⟨hf, ?_⟩
    split at h
    next => cases h
    next i s1 hfetch =>
      split at h
      next t1 hexec =>
        obtain ⟨_, h⟩ := outcome_eq_next h
        exact ⟨i, s1, t1, hfetch, hexec, h⟩
      next => cases h
      next => cases h

theorem step_keeps {s t : State} (h : step s = .next t) :
    t.prgBanks = s.prgBanks ∧ t.chrBanks = s.chrBanks ∧ t.vblankCycles = s.vblankCycles ∧ t.fault = none := by
  obtain ⟨hf, i, s1, t1, hfetch, hexec, hafter⟩ := step_next h
  obtain ⟨hk, -⟩ := fetch_ok hfetch
  obtain ⟨-, -, -, hprg, hchr, hfault, hvbc⟩ := exec_kept hexec
  obtain ⟨hd, -⟩ := afterTick_ok hafter
  exact ⟨(hd.prg.trans hprg).trans hk.prg, (hd.chr.trans hchr).trans hk.chr, (hd.vbc.trans hvbc).trans hk.vbc,
    ((hd.fault.trans hfault).trans hk.fault).trans hf⟩

/-! ### PC -/

theorem pc_return {pc0 : Int} {s t : State} {n : Unit} (h : returnFromInterrupt pc0 s = .ok n t) :
    0 ≤ t.pc ∧ t.pc ≤ 0xFFFF := by
  obtain ⟨_, _, _, h⟩ := bind_eq_ok h
  obtain ⟨_, _, hpull, h⟩ := bind_eq_ok h
  cases h
  obtain ⟨lo, _, _, hpull⟩ := bind_eq_ok hpull
  obtain ⟨hi, _, _, hpull⟩ := bind_eq_ok hpull
  cases hpull
  exact ⟨Int.natCast_nonneg _, Int.ofNat_le.2 (addressOf_le lo hi)⟩

theorem pullAddress_le {pc0 : Int} {s t : State} {target : Nat} (h : pullAddress pc0 s = .ok target t) : target ≤ 0xFFFF := by
  obtain ⟨lo, _, _, h⟩ := bind_eq_ok h
  obtain ⟨hi, _, _, h⟩ := bind_eq_ok h
  cases h
  exact addressOf_le lo hi

/-- Where an effect leaves PC: at the next instruction, at a branch target, at a jump target, or at an address from memory
(and one more for RTS). -/
theorem EffectCase.pc {m : Mnemonic} {site : Site} {res : Addressing} {s t : State} {taken : Bool}
    (h : EffectCase m site res s taken t) :
    t.pc = s.pc ∨ (m ∈ branches ∧ ∃ d, t.pc = s.pc + sext8 d) ∨ (m ∈ jumps ∧ ∃ ea : Nat, res.ea = some ea ∧ t.pc = ea) ∨
      (0 ≤ t.pc ∧ t.pc ≤ 0x10000) := by
  cases h with
  | registers ht => exact .inl ht.pc_eq
  | branchTaken hm d => exact .inr (.inl ⟨hm, d, rfl⟩)
  | store _ _ hu ht => exact .inl ((pc_memWrite ht).trans hu.pc_eq)
  | push _ ht => exact .inl (pc_push ht)
  | pull _ hu ht => exact .inl (ht.pc_eq.trans (pc_pull hu))
  | jump hm hea => exact .inr (.inr (.inl ⟨hm, _, hea, rfl⟩))
  | call hm hea => exact .inr (.inr (.inl ⟨hm, _, hea, rfl⟩))
  | ret _ hu =>
    have := pullAddress_le hu
    exact .inr (.inr (.inr ⟨by dsimp only; omega, by dsimp only; omega⟩))
  | interrupt _ ht =>
    obtain ⟨h0, h1⟩ := pc_enter ht
    exact .inr (.inr (.inr ⟨h0, by omega⟩))
  | returned _ ht =>
    obtain ⟨h0, h1⟩ := pc_return ht
    exact .inr (.inr (.inr ⟨h0, by omega⟩))

theorem jump_form {i : Instr} (h : i.entry.mnemonic ∈ jumps) : (∃ a, i.operand = .absolute a) ∨ ∃ a, i.operand = .indirect a := by
  cases i <;> first
    | exact .inl ⟨_, rfl⟩
    | exact .inr ⟨_, rfl⟩
    | exact absurd h (of_decide_eq_false rfl)

theorem jump_target_le {i : Instr} {s t : State} {res : Addressing} {ea : Nat} (hm : i.entry.mnemonic ∈ jumps)
    (hres : resolve i.operand i.entry.access s = .ok res t) (hea : res.ea = some ea) : ea ≤ 0xFFFF := by
  rcases jump_form hm with ⟨a, ha⟩ | ⟨a, ha⟩
  · rw [ha, access_of_jump hm] at hres
    cases hres
    cases hea
    have := a.isLt
    omega
  · rw [ha] at hres
    obtain ⟨lo, _, _, hres⟩ := bind_eq_ok hres
    obtain ⟨hi, _, _, hres⟩ := bind_eq_ok hres
    cases hres
    cases hea
    exact addressOf_le lo hi

/-- An instruction that lies on the bus leaves PC in the range of 10_state.md R33. -/
theorem exec_pcInRange {i : Instr} {s t : State} (h : exec i s = .next t) (h0 : 0 ≤ s.pc)
    (hend : s.pc + i.operand.mode.length ≤ 0x10000) : pcInRange t.pc := by
  obtain ⟨res, s1, taken, s2, hres, heff, rfl⟩ := exec_next h
  have hpc := pc_resolve hres
  show -126 ≤ s2.pc ∧ s2.pc ≤ 0x1007F
  rcases (effect_cases heff).pc with hnext | ⟨hm, d, hbranch⟩ | ⟨hm, ea, hea, hjump⟩ | ⟨hlow, hhigh⟩
  · omega
  · obtain ⟨b, hb⟩ := branch_form hm
    rw [hb] at hpc hend
    have hlength : (Operand.relative b).mode.length = 2 := rfl
    have := sext8_range d
    omega
  · have := jump_target_le hm hres hea
    omega
  · omega

/-! ### CYC -/

theorem EffectCase.taken {m : Mnemonic} {site : Site} {res : Addressing} {s t : State}
    (h : EffectCase m site res s true t) : m ∈ branches := by
  cases h with
  | branchTaken hm => exact hm

/-- The cycle columns of the table: no row costs less than 2 or, with its page-cross extra, more than 7; a branch costs 2. -/
theorem entry_cycles (i : Instr) : 2 ≤ i.entry.base ∧ i.entry.base + i.entry.extra ≤ 7 ∧
    (i.entry.mnemonic ∈ branches → i.entry.base + i.entry.extra = 2) := by
  cases i <;> exact of_decide_eq_true rfl

theorem exec_cycles {i : Instr} {s t : State} (h : exec i s = .next t) : s.cyc + 2 ≤ t.cyc ∧ t.cyc ≤ s.cyc + 7 := by
  obtain ⟨res, s1, taken, s2, hres, heff, rfl⟩ := exec_next h
  have hcase := effect_cases heff
  have hcyc : s2.cyc = s.cyc := hcase.kept.cyc.trans (kept_resolve hres).cyc
  obtain ⟨hlow, hhigh, hbranch⟩ := entry_cycles i
  rw [account_cyc, hcyc, realizedCycles]
  have hcross : (if res.crossed then i.entry.extra else 0) ≤ i.entry.extra := by split <;> omega
  cases taken with
  | false => simp only [Bool.false_eq_true, if_false]; omega
  | true =>
    have := hbranch hcase.taken
    simp only [if_true]
    omega

/-! ### The obligations -/

/-- Settles O10: the fetch bounds PC, `EffectCase.pc` says where the instruction goes from there, and the driver step enters
the NMI at an address from memory. -/
theorem pcAfterStepInRange : Obligations.PcAfterStepInRange := by
  unfold Obligations.PcAfterStepInRange
  intro s t h
  obtain ⟨-, i, s1, t1, hfetch, hexec, hafter⟩ := step_next h
  obtain ⟨-, hpc, h0, hend⟩ := fetch_ok hfetch
  have htick : pcInRange t1.pc := exec_pcInRange hexec (by rw [hpc]; exact h0) (by rw [hpc]; exact hend)
  rcases (afterTick_ok hafter).2 with hsame | ⟨hlow, hhigh⟩
  · rw [hsame]; exact htick
  · exact ⟨by omega, by omega⟩

/-- Settles O11: only the instruction's accounting moves CYC. -/
theorem cyclesOfAStep : Obligations.CyclesOfAStep := by
  unfold Obligations.CyclesOfAStep
  intro s t h
  obtain ⟨-, i, s1, t1, hfetch, hexec, hafter⟩ := step_next h
  have hbefore : s1.cyc = s.cyc := (fetch_ok hfetch).1.cyc
  have hdriver : t.cyc = t1.cyc := (afterTick_ok hafter).1.cyc
  rw [hdriver, ← hbefore]
  exact exec_cycles hexec

/-- Settles O39: each register's writers, from the one inversion of the effects. -/
theorem whoWritesTheRegisters : Obligations.WhoWritesTheRegisters := by
  unfold Obligations.WhoWritesTheRegisters
  intro i s t h
  have hw := exec_onlyWrites h
  exact ⟨fun hne => (hw.acc.resolve_left hne).imp_left of_decide_eq_true, hw.x.resolve_left, hw.y.resolve_left,
    hw.stk.resolve_left⟩

/-- Settles O40: each flag's writers, from the one inversion of the effects. -/
theorem whoWritesTheFlags : Obligations.WhoWritesTheFlags := by
  unfold Obligations.WhoWritesTheFlags
  intro i s t h
  have hw := (exec_onlyWrites h).flag
  exact ⟨(hw .C).resolve_left, fun hne => hne.elim (hw .Z).resolve_left (hw .N).resolve_left, (hw .I).resolve_left,
    (hw .D).resolve_left, (hw .B).resolve_left, (hw .U).resolve_left, (hw .V).resolve_left⟩

/-- Settles O43: the parts of a tick keep the driver's state and reach a port only by their own access. -/
theorem instructionsKeepTheDriversState : Obligations.InstructionsKeepTheDriversState := by
  unfold Obligations.InstructionsKeepTheDriversState
  exact ⟨fun _ _ _ => exec_kept, fun _ _ _ p h => exec_keeps_pad h p, fun _ _ _ => exec_draws_nothing, fun _ _ => step_keeps⟩

/-- Settles O7: a recorded fault, or one of the three ways a fetch stops. -/
theorem stepStopsWithoutRunningAnInstruction : Obligations.StepStopsWithoutRunningAnInstruction := by
  unfold Obligations.StepStopsWithoutRunningAnInstruction
  refine ⟨?recorded, ?offBus, ?unknown, ?pastEnd⟩
  case recorded => intro s f hf; simp only [step, hf]
  case offBus => intro s hf hpc; exact step_of_fetch_raise hf (fetch_off_bus hpc)
  case unknown => intro s n hf hpc hn hp hop; exact step_of_fetch_raise hf (fetch_unknown hpc hn hp hop)
  case pastEnd =>
    intro s n i hf hpc hn hop hlen
    obtain ⟨t, ht⟩ := fetch_past_end hpc hn hop hlen
    exact step_of_fetch_raise hf ht

/-- Settles O57: construction, field by field, and reset by definition. -/
theorem constructionZeroesTheRegisters : Obligations.ConstructionZeroesTheRegisters := by
  unfold Obligations.ConstructionZeroesTheRegisters
  have hflags (p : Params) (f : Flag) : (State.construct p).flag f = false := BitVec.getLsbD_zero
  have hpads (p : Params) (q : Port) : (State.construct p).pad q = { index := 0, lastWrite := none } := by cases q <;> rfl
  exact ⟨fun p => ⟨rfl, rfl, rfl, rfl, rfl, hflags p, rfl, rfl, rfl, rfl, rfl, rfl, rfl, hpads p, rfl, rfl, rfl, rfl, rfl, rfl⟩, rfl⟩

end Sys2Proof.Machine

/-! SUPPORT. The two buses by cell: a write and what a read of any mirror gives after it, the port effects one by one, the mirror
groups, and the obligations about them. -/

namespace Sys2Proof.Machine

/-! ### Byte stores -/

/-- Below its first entry a byte store in canonical form reads as the initial byte. -/
theorem read_below {m : Memory} {a b : Nat} {v : Byte} (h : Memory.wf ((b, v) :: m) = true) (hab : a < b) :
    Memory.read ((b, v) :: m) a = Config.initByte := by
  obtain ⟨-, hb, -⟩ := (wf_cons b v m).1 h
  apply read_unlisted
  simp only [List.forall_mem_cons]
  exact ⟨by omega, fun e he => by have := hb e he; omega⟩

/-- The first entry of a byte store in canonical form is seen by a read. -/
theorem read_head_ne {m : Memory} {b : Nat} {v : Byte} (h : Memory.wf ((b, v) :: m) = true) :
    Memory.read ((b, v) :: m) b ≠ Config.initByte := by
  obtain ⟨hv, -, -⟩ := (wf_cons b v m).1 h
  rwa [read_cons, if_pos rfl]

theorem memory_ext : ∀ {m n : Memory}, m.wf = true → n.wf = true → (∀ a, Memory.read m a = Memory.read n a) → m = n
  | [], [], _, _, _ => rfl
  | [], (b, _) :: _, _, hn, h => absurd (h b).symm (read_head_ne hn)
  | (a, _) :: _, [], hm, _, h => absurd (h a) (read_head_ne hm)
  | (a, v) :: m, (b, w) :: n, hm, hn, h => by
    have hab : a = b := by
      rcases lt_trichotomy a b with hlt | heq | hgt
      · exact absurd ((h a).trans (read_below hn hlt)) (read_head_ne hm)
      · exact heq
      · exact absurd ((h b).symm.trans (read_below hm hgt)) (read_head_ne hn)
    subst hab
    have hvw : v = w := by simpa [read_cons] using h a
    obtain ⟨-, ha, hm⟩ := (wf_cons a v m).1 hm
    obtain ⟨-, ha', hn⟩ := (wf_cons a w n).1 hn
    have htail : ∀ c, Memory.read m c = Memory.read n c := by
      intro c
      by_cases hc : c = a
      · subst hc
        rw [read_unlisted m c fun e he => (ha e he).ne', read_unlisted n c fun e he => (ha' e he).ne']
      · simpa [read_cons, hc] using h c
    rw [hvw, memory_ext hm hn htail]

/-! ### The folding of the video bus -/

theorem vcanon_mirror {a : Nat} (h : 0x3000 ≤ a) (h' : a ≤ 0x3EFF) : vcanon a = a - 0x1000 := by
  unfold vcanon; rw [if_pos ⟨h, h'⟩]

theorem vcanon_palette {a : Nat} (h : 0x3F00 ≤ a) (h' : a ≤ 0x3FFF) : vcanon a = backgroundFold (0x3F00 + a % 32) := by
  unfold vcanon; rw [if_neg (by omega), if_pos ⟨h, h'⟩]

theorem vcanon_plain {a : Nat} (h : a < 0x3000 ∨ 0x3FFF < a) : vcanon a = a := by
  unfold vcanon; rw [if_neg (by omega), if_neg (by omega)]

/-- The palette's fold: entry `r` of the 32 is stored at entry `k` where it is that entry, or the background entry 16 above it. -/
theorem backgroundFold_eq_iff {r k : Nat} (hr : r < 32) (hk : k < 32) (h : k ∉ [16, 20, 24, 28]) :
    backgroundFold (0x3F00 + r) = 0x3F00 + k ↔ r = k ∨ (k ∈ [0, 4, 8, 12] ∧ r = k + 16) := by
  simp only [List.mem_cons, List.not_mem_nil, or_false] at *
  unfold backgroundFold
  split <;> omega

/-! ### The effect of a write by cell -/

section
variable (v : Byte) (s : State)

theorem portEffect_spriteData : portEffect 0x2004 v s = spritePortWrite v s := rfl
theorem portEffect_videoAddress : portEffect 0x2006 v s = addrPortWrite v s := rfl
theorem portEffect_videoData : portEffect 0x2007 v s =
    { s with video := Memory.write s.video (vcanon s.vaddrLatch) v, vaddrLatch := s.vaddrLatch + 1 } := rfl

variable {c : Nat}

theorem portEffect_cpu (h : c ≠ 0x2004) : (portEffect c v s).cpu = s.cpu := by
  unfold portEffect
  rw [if_neg h]
  split_ifs
  · simp
  · rfl
  · split <;> simp

theorem portEffect_sprite (h : c ≠ 0x2004) : (portEffect c v s).sprite = s.sprite := by
  unfold portEffect
  rw [if_neg h]
  split_ifs
  · simp
  · rfl
  · split <;> simp

theorem portEffect_video (h : c ≠ 0x2007) : (portEffect c v s).video = s.video := by
  unfold portEffect
  split_ifs
  · simp
  · simp
  · split <;> simp

theorem portEffect_latch (h : c ≠ 0x2006) (h' : c ≠ 0x2007) : (portEffect c v s).vaddrLatch = s.vaddrLatch := by
  unfold portEffect
  split_ifs
  · simp
  · split <;> simp

theorem portEffect_toggle (h : c ≠ 0x2006) : (portEffect c v s).vaddrToggle = s.vaddrToggle := by
  unfold portEffect
  split_ifs
  · simp
  · rfl
  · split <;> simp

theorem portEffect_wf (h : s.cpu.wf = true) : (portEffect c v s).cpu.wf = true := by
  by_cases hc : c = 0x2004
  · subst hc; exact wf_write _ _ _ h
  · rw [portEffect_cpu v s hc]; exact h

end

theorem memRead_off_bus {a : Int} (s : State) (h : a < 0 ∨ 0xFFFF < a) :
    memRead a s = raiseFault (.addressOutOfRange a) s := by
  rw [memRead_eq, if_neg (by omega)]

/-- A completed write leaves its byte in the cell it is at. -/
theorem memWrite_peek {a b : Nat} {v : Byte} {s : State} (hwf : s.cpu.wf = true) (hab : canon a = canon b)
    (hw : Writable a s) : ∃ t, memWrite a v s = .ok () t ∧ t.peek b = v := by
  obtain ⟨ha, hl⟩ := hw
  refine ⟨_, memWrite_nat a v s ha hl, ?_⟩
  rw [State.peek, ← hab]
  exact read_write_same _ _ _ (portEffect_wf v s hwf)

/-! ### The obligations -/

/-- Settles O47: each range of the folding by arithmetic. -/
theorem cpuBusAliasGroups : Obligations.CpuBusAliasGroups := by
  unfold Obligations.CpuBusAliasGroups canon
  intro a ha
  refine ⟨fun r hr => ?ram, fun k hk => ⟨fun h => ?port, ?mirror⟩, fun b hb => ?own⟩
  case ram => split_ifs <;> omega
  case port => exact ⟨(a - 0x2000) / 8, by split_ifs at h <;> omega, by split_ifs at h <;> omega⟩
  case mirror => rintro ⟨j, hj, rfl⟩; split_ifs <;> omega
  case own => split_ifs <;> omega

/-- Settles O48: the fold of each range; the palette through `backgroundFold_eq_iff`. -/
theorem videoBusAliasGroups : Obligations.VideoBusAliasGroups := by
  unfold Obligations.VideoBusAliasGroups
  intro a ha
  refine ⟨fun h h' => vcanon_mirror h h', fun k hk h16 h20 h24 h28 => ?palette, fun b hb hb' => ?own⟩
  case palette =>
    have hback : k ∉ [16, 20, 24, 28] := by simp [h16, h20, h24, h28]
    by_cases hin : 0x3F00 ≤ a ∧ a ≤ 0x3FFF
    · rw [vcanon_palette hin.1 hin.2, backgroundFold_eq_iff (Nat.mod_lt _ (by decide)) hk hback]
      refine or_congr ⟨fun h => ⟨(a - 0x3F00) / 32, by omega, by omega⟩, ?_⟩ (and_congr_right fun hk4 => ?_)
      · rintro ⟨j, hj, rfl⟩; omega
      · have hk16 : k < 16 := by simp only [List.mem_cons, List.not_mem_nil, or_false] at hk4; omega
        refine ⟨fun h => ⟨(a - 0x3F00) / 32, by omega, by omega⟩, ?_⟩
        rintro ⟨j, hj, rfl⟩; omega
    · have hlow : vcanon a ≠ 0x3F00 + k := by
        by_cases hm : 0x3000 ≤ a ∧ a ≤ 0x3EFF
        · rw [vcanon_mirror hm.1 hm.2]; omega
        · rw [vcanon_plain (by omega)]; omega
      refine ⟨fun h => absurd h hlow, ?_⟩
      rintro (⟨j, hj, rfl⟩ | ⟨hk4, j, hj, rfl⟩)
      · omega
      · simp only [List.mem_cons, List.not_mem_nil, or_false] at hk4; omega
  case own =>
    by_cases hm : 0x3000 ≤ a ∧ a ≤ 0x3EFF
    · rw [vcanon_mirror hm.1 hm.2]; omega
    · by_cases hin : 0x3F00 ≤ a ∧ a ≤ 0x3FFF
      · have hfold : 0x3F00 ≤ vcanon a ∧ vcanon a ≤ 0x3FFF := by
          rw [vcanon_palette hin.1 hin.2]
          unfold backgroundFold
          split <;> omega
        omega
      · rw [vcanon_plain (by omega)]; omega

/-- Settles O52: the laws of a write, and extensionality by induction on both lists. -/
theorem canonicalMemoriesAreEqualWhenTheyReadAlike : Obligations.CanonicalMemoriesAreEqualWhenTheyReadAlike :=
  ⟨fun m a b v h => ⟨wf_write m a v h, read_write m a b v h⟩, fun _ _ => memory_ext⟩

/-- Settles O6: by induction on the count, each read being plain. -/
theorem fetchReadsTheStoredBytes : Obligations.FetchReadsTheStoredBytes := by
  unfold Obligations.FetchReadsTheStoredBytes
  intro n
  induction n with
  | zero => intro a s _ _; rfl
  | succ n ih =>
    intro a s hle hp
    have hrest := ih (a + 1) s (by omega) fun k hk => by
      rw [Nat.add_right_comm]; exact hp (k + 1) (by omega)
    rw [readBytes, memRead_plain a s (by omega) (hp 0 (by omega)), bind_ok, show (a : Int) + 1 = (a + 1 : Nat) by omega,
      hrest, bind_ok, List.range_succ_eq_map]
    simp [Function.comp_def, Nat.add_right_comm, Nat.add_assoc]

/-- Settles O49: `busRead` by cell; a controller port draws its next button. -/
theorem busReadsByCell : Obligations.BusReadsByCell := by
  unfold Obligations.BusReadsByCell
  refine ⟨fun a s h => ?offBus, fun a s h => memRead_nat a s h, fun a s h hp => memRead_plain a s h hp,
    fun a s p h hp => ?port⟩
  case offBus => rw [memRead_off_bus s h, outcome_raiseFault]
  case port =>
    refine ⟨(padRead p s).2, by rw [memRead_nat a s h, busRead_port a p s hp]; rfl, ?_⟩
    have hpad : (padRead p s).2.pad p = { s.pad p with index := (s.pad p).index + 1 } := by cases p <;> rfl
    have hother : ∀ q, q ≠ p → (padRead p s).2.pad q = s.pad q := by
      intro q hq
      rw [← pad_setPad_other s p q { s.pad p with index := (s.pad p).index + 1 } hq]
      cases q <;> rfl
    rw [hpad]
    exact ⟨by simp [Fin.val_add], rfl, hother, padRead_buttonDraws s p, by cases p <;> rfl⟩

/-- Settles O50: the three ports of `portEffect`, each followed by the store of the byte. -/
theorem videoPortWrites : Obligations.VideoPortWrites := by
  unfold Obligations.VideoPortWrites
  intro a v s ha
  refine ⟨fun hc => ?spriteData, fun hc ht => ?highByte, fun hc ht => ?lowByte, fun hc hl => ?videoData⟩
  case spriteData => rw [memWrite_nat a v s ha (by omega), hc, portEffect_spriteData]; rfl
  case highByte => rw [memWrite_nat a v s ha (by omega), hc, portEffect_videoAddress, addrPortWrite, ht]; rfl
  case lowByte =>
    have hlatch : s.vaddrLatch - s.vaddrLatch % 256 = s.vaddrLatch / 256 * 256 := by omega
    rw [memWrite_nat a v s ha (by omega), hc, portEffect_videoAddress, addrPortWrite, ht, hlatch]; rfl
  case videoData => rw [memWrite_nat a v s ha fun _ => hl, hc, portEffect_videoData]; rfl

/-- Settles O46: both buses store by canonical cell, so the laws of a byte store carry over to every mirror. -/
theorem mirrorsShareStorage : Obligations.MirrorsShareStorage := by
  unfold Obligations.MirrorsShareStorage
  refine ⟨fun a b v s hwf ha hb => ⟨fun hab hw => ?sameCell, fun t hne hsprite hw => ?otherCell⟩,
    fun a b v s hwf ha hb => ?video, fun a v s h => ?offBus⟩
  case sameCell =>
    obtain ⟨t, ht, hpeek⟩ := memWrite_peek (v := v) hwf hab hw
    exact ⟨t, ht, hpeek, fun hp => by rw [memRead_plain b t hb hp, hpeek]⟩
  case otherCell => exact memWrite_cell a v s t () hw (canon b) hne hsprite
  case video =>
    refine ⟨_, vmemWrite_nat a v s ha, rfl, fun hab => ?_, fun hne => ?_⟩
    · rw [vmemRead_nat b _ hb, State.vpeek, ← hab, read_write_same _ _ _ hwf]
    · rw [vmemRead_nat b _ hb, State.vpeek, read_write_other _ _ _ _ (Ne.symm hne)]; rfl
  case offBus =>
    obtain ⟨hr, hw⟩ := vmem_off_the_bus a v s h
    rw [hr, hw]
    exact ⟨rfl, rfl⟩

end Sys2Proof.Machine

/-! SUPPORT. What a completed instruction leaves alone in memory, read off `effect_cases`: a store keeps every cell but those it
names, a push every cell but its own, everything else all of memory. -/

namespace Sys2Proof.Machine

/-- The video bus, sprite memory and the video address latch are the same. -/
structure VideoKept (s t : State) : Prop where
  video : t.video = s.video
  sprite : t.sprite = s.sprite
  latch : t.vaddrLatch = s.vaddrLatch
  toggle : t.vaddrToggle = s.vaddrToggle

/-- All of memory is the same. -/
structure MemoryKept (s t : State) : Prop extends VideoKept s t where
  cpu : t.cpu = s.cpu

/-- From `s` to `t` memory differs only in what a store at CPU-bus cell `c` names (20_memory.md R74 to R79). -/
structure StoreFrame (c : Nat) (s t : State) : Prop where
  cell : ∀ d, d ≠ c → (c = 0x2004 → d ≠ 0x2003) → t.cell d = s.cell d
  sprite : ∀ k, (c = 0x2004 → k ≠ (s.cell 0x2003).toNat) → Memory.read t.sprite k = Memory.read s.sprite k
  video : ∀ d, (c = 0x2007 → d ≠ vcanon s.vaddrLatch) → Memory.read t.video d = Memory.read s.video d
  latch : c ≠ 0x2006 → c ≠ 0x2007 → t.vaddrLatch = s.vaddrLatch
  toggle : c ≠ 0x2006 → t.vaddrToggle = s.vaddrToggle

/-- From `s` to `t` memory differs only in the `n` stack cells that `n` pushes wrote (48_stack_control.md R280). -/
structure PushedOnly (n : Nat) (s t : State) : Prop extends VideoKept s t where
  stk : t.stk.toNat = s.stk.toNat - n
  cell : ∀ c, (∀ k, k < n → c ≠ 0x0100 + (s.stk.toNat - k)) → t.cell c = s.cell c

section
variable {s t u : State}

/-! ### All of memory kept -/

theorem VideoKept.trans (h1 : VideoKept s t) (h2 : VideoKept t u) : VideoKept s u :=
  ⟨h2.video.trans h1.video, h2.sprite.trans h1.sprite, h2.latch.trans h1.latch, h2.toggle.trans h1.toggle⟩

theorem MemoryKept.trans (h1 : MemoryKept s t) (h2 : MemoryKept t u) : MemoryKept s u :=
  ⟨h1.toVideoKept.trans h2.toVideoKept, h2.cpu.trans h1.cpu⟩

theorem MemoryKept.cell (h : MemoryKept s t) (c : Nat) : t.cell c = s.cell c := by rw [State.cell, h.cpu]; rfl

theorem memoryKept_setPc {n : Int} : MemoryKept s { s with pc := n } := ⟨⟨rfl, rfl, rfl, rfl⟩, rfl⟩

theorem memoryKept_account {e : Entry} {pc0 : Int} {crossed taken : Bool} :
    MemoryKept s (account e pc0 crossed taken s) := ⟨⟨rfl, rfl, rfl, rfl⟩, rfl⟩

theorem Regs.memoryKept (h : Regs s t) : MemoryKept s t := ⟨⟨h.video, h.sprite, h.latch, h.toggle⟩, h.cpu⟩

theorem RegisterUpdate.memoryKept {m : Mnemonic} {b : Bool} (h : RegisterUpdate m b s t) : MemoryKept s t := by
  rw [h.rest]; exact ⟨⟨rfl, rfl, rfl, rfl⟩, rfl⟩

theorem memoryKept_pull {pc0 : Int} {v : Byte} (h : pull pc0 s = .ok v t) : MemoryKept s t := by
  rw [pull_eq] at h
  split_ifs at h
  · simp at h
  · cases h; exact ⟨⟨rfl, rfl, rfl, rfl⟩, rfl⟩

theorem memoryKept_pullAddress {pc0 : Int} {n : Nat} (h : pullAddress pc0 s = .ok n t) : MemoryKept s t := by
  obtain ⟨_, u, h1, h⟩ := bind_eq_ok h
  obtain ⟨_, u', h2, h⟩ := bind_eq_ok h
  cases h
  exact (memoryKept_pull h1).trans (memoryKept_pull h2)

theorem memoryKept_return {pc0 : Int} {n : Unit} (h : returnFromInterrupt pc0 s = .ok n t) : MemoryKept s t := by
  obtain ⟨st, u1, h1, h⟩ := bind_eq_ok h
  obtain ⟨_, u2, h2, h⟩ := bind_eq_ok h
  cases h
  have hstatus : MemoryKept u1 { u1 with status := st } := ⟨⟨rfl, rfl, rfl, rfl⟩, rfl⟩
  exact (((memoryKept_pull h1).trans hstatus).trans (memoryKept_pullAddress h2)).trans memoryKept_setPc

/-! ### A store -/

theorem MemoryKept.storeFrame {c : Nat} (h : MemoryKept s t) : StoreFrame c s t where
  cell d _ _ := h.cell d
  sprite k _ := by rw [h.sprite]
  video d _ := by rw [h.video]
  latch _ _ := h.latch
  toggle _ := h.toggle

/-- Memory kept before and after a store does not widen what it names. -/
theorem StoreFrame.between {c : Nat} {r : State} (h : StoreFrame c s t) (before : MemoryKept r s) (after : MemoryKept t u) :
    StoreFrame c r u where
  cell d hd hs := by rw [after.cell, h.cell d hd hs, before.cell]
  sprite k hk := by rw [after.sprite, h.sprite k (by rwa [before.cell]), before.sprite]
  video d hd := by rw [after.video, h.video d (by rwa [before.latch]), before.video]
  latch h1 h2 := by rw [after.latch, h.latch h1 h2, before.latch]
  toggle h1 := by rw [after.toggle, h.toggle h1, before.toggle]

theorem memWrite_ok {a : Int} {v : Byte} {n : Unit} (h : memWrite a v s = .ok n t) :
    t = (portEffect (canon a.toNat) v s).setCell (canon a.toNat) v := by
  rw [memWrite_eq] at h
  split_ifs at h
  · simp at h
  · cases h; rfl
  · simp at h

theorem storeFrame_memWrite {a : Int} {v : Byte} {n : Unit} (h : memWrite a v s = .ok n t) :
    StoreFrame (canon a.toNat) s t where
  cell := memWrite_cell a v s t n h
  sprite k hk := by
    rw [memWrite_ok h, setCell_sprite]
    by_cases hc : canon a.toNat = 0x2004
    · rw [hc, portEffect_spriteData]; exact read_write_other _ _ _ _ (hk hc)
    · rw [portEffect_sprite v s hc]
  video d hd := by
    rw [memWrite_ok h, setCell_video]
    by_cases hc : canon a.toNat = 0x2007
    · rw [hc, portEffect_videoData]; exact read_write_other _ _ _ _ (hd hc)
    · rw [portEffect_video v s hc]
  latch h1 h2 := by rw [memWrite_ok h, setCell_vaddrLatch, portEffect_latch v s h1 h2]
  toggle h1 := by rw [memWrite_ok h, setCell_vaddrToggle, portEffect_toggle v s h1]

/-! ### Pushes -/

theorem PushedOnly.refl : PushedOnly 0 s s := ⟨⟨rfl, rfl, rfl, rfl⟩, rfl, fun _ _ => rfl⟩

/-- Memory and STK kept after the pushes add no cell to them. -/
theorem PushedOnly.kept {n : Nat} (h : PushedOnly n s t) (hk : MemoryKept t u) (hstk : u.stk = t.stk) : PushedOnly n s u where
  toVideoKept := h.toVideoKept.trans hk.toVideoKept
  stk := by rw [hstk, h.stk]
  cell c hc := by rw [hk.cell, h.cell c hc]

/-- One more push names one more cell. -/
theorem PushedOnly.push {n : Nat} {pc0 : Int} {v : Byte} {x : Unit} (h : PushedOnly n s t)
    (hp : Machine.push pc0 v t = .ok x u) : PushedOnly (n + 1) s u := by
  rw [push_eq] at hp
  split_ifs at hp with h0
  · simp at hp
  · cases hp
    have hstk := h.stk
    refine ⟨h.toVideoKept.trans ⟨rfl, rfl, rfl, rfl⟩, ?_, fun c hc => ?_⟩
    · show (t.stk - 1).toNat = _
      bv_omega
    · have hne : c ≠ 0x0100 + t.stk.toNat := by rw [hstk]; exact hc n (by omega)
      exact (read_write_other _ _ _ _ hne).trans (h.cell c fun k hk => hc k (by omega))

theorem pushedOnly_pushAddress {pc0 v : Int} {x : Unit} (h : pushAddress pc0 v s = .ok x t) : PushedOnly 2 s t := by
  obtain ⟨_, u, h1, h⟩ := bind_eq_ok h
  exact (PushedOnly.refl.push h1).push h

theorem pushedOnly_brk {pc0 ret vector : Int} {x : Unit} (h : enterInterrupt pc0 ret true vector s = .ok x t) :
    PushedOnly 3 s t := by
  obtain ⟨_, u1, h1, h⟩ := bind_eq_ok h
  obtain ⟨_, u2, h2, h⟩ := bind_eq_ok h
  obtain ⟨_, u3, h3, h⟩ := bind_eq_ok h
  cases h
  have hflags : MemoryKept u2 ((u2.setFlag .B true).setFlag .I true) := ⟨⟨rfl, rfl, rfl, rfl⟩, rfl⟩
  have hread := regs_memRead16 h3
  exact ((pushedOnly_pushAddress h1).push h2).kept ((hflags.trans hread.memoryKept).trans memoryKept_setPc) hread.stk

end

/-! ### The effects -/

def pushers : List Mnemonic := [.PHA, .PHP, .JSR, .BRK]

/-- How many bytes a pushing mnemonic pushes. -/
def pushCount (m : Mnemonic) : Nat := if m = .BRK then 3 else if m = .JSR then 2 else 1

section
variable {m : Mnemonic} {site : Site} {res : Addressing} {s t : State} {taken : Bool}

/-- An effect that does not use the stack keeps memory, or stores a byte at its effective address. -/
theorem EffectCase.memory (h : EffectCase m site res s taken t) (hm : m ∉ stkWriters) : MemoryKept s t ∨
    (m ∈ storers ∧ ∃ ea, res.ea = some ea ∧ StoreFrame (canon ea) s t) := by
  cases h with
  | registers ht => exact .inl ht.memoryKept
  | branchTaken => exact .inl memoryKept_setPc
  | @store ea _ _ _ hstore hea hu ht =>
    have hframe := storeFrame_memWrite ht
    rw [Int.toNat_natCast] at hframe
    exact .inr ⟨hstore, ea, hea, hframe.between hu.memoryKept ⟨⟨rfl, rfl, rfl, rfl⟩, rfl⟩⟩
  | jump => exact .inl memoryKept_setPc
  | push hstk => exact absurd hstk hm
  | pull hstk => exact absurd hstk hm
  | call _ _ hstk => exact absurd hstk hm
  | ret hstk => exact absurd hstk hm
  | interrupt hbrk => subst hbrk; exact absurd hm (by decide)
  | returned hrti => subst hrti; exact absurd hm (by decide)

/-- An effect that moves STK without pushing keeps memory. -/
theorem effect_memory_of_pull (h : effectOf m site res s = .ok taken t) (hm : m ∈ stkWriters) (hpush : m ∉ pushers) :
    MemoryKept s t := by
  cases m
  case TXS => cases h; exact ⟨⟨rfl, rfl, rfl, rfl⟩, rfl⟩
  case PLA | PLP =>
    obtain ⟨_, u, hu, h⟩ := bind_eq_ok h
    cases h
    exact (memoryKept_pull hu).trans ⟨⟨rfl, rfl, rfl, rfl⟩, rfl⟩
  case RTS =>
    obtain ⟨_, u, hu, h⟩ := bind_eq_ok h
    cases h
    exact (memoryKept_pullAddress hu).trans memoryKept_setPc
  case RTI =>
    obtain ⟨_, u, hu, h⟩ := bind_eq_ok h
    cases h
    exact memoryKept_return hu
  case PHA | PHP | JSR | BRK => exact absurd hpush (by decide)
  all_goals exact absurd hm (by decide)

theorem effect_pushes (h : effectOf m site res s = .ok taken t) (hm : m ∈ pushers) : PushedOnly (pushCount m) s t := by
  cases m
  case PHA | PHP =>
    obtain ⟨_, u, hu, h⟩ := bind_eq_ok h
    cases h
    exact PushedOnly.refl.push hu
  case JSR =>
    obtain ⟨_, -, h⟩ := withEa_ok h
    obtain ⟨_, u, hu, h⟩ := bind_eq_ok h
    cases h
    exact (pushedOnly_pushAddress hu).kept memoryKept_setPc rfl
  case BRK =>
    obtain ⟨_, u, hu, h⟩ := bind_eq_ok h
    cases h
    exact pushedOnly_brk hu
  all_goals exact absurd hm (by decide)

end

/-! ### The whole instruction -/

/-- A store mnemonic, or a read-modify-write form. -/
def StoringForm (i : Instr) : Prop := i.entry.mnemonic ∈ [Mnemonic.STA, .STX, .STY] ∨ i.entry.access = .readModifyWrite

section
variable {i : Instr} {s t : State} {ea : Nat} {crossed : Bool}

theorem mem_storers_of_storingForm (h : StoringForm i) : i.entry.mnemonic ∈ storers := by
  rcases h with h | h
  · exact List.mem_append_left [.ASL, .LSR, .ROL, .ROR, .INC, .DEC] h
  · cases i <;> first
      | exact of_decide_eq_true rfl
      | exact absurd h (of_decide_eq_false rfl)

/-- A storing mnemonic with an effective address is a storing form: the accumulator shifts have none. -/
theorem storingForm_of_effectiveAddress (hm : i.entry.mnemonic ∈ storers)
    (hea : effectiveAddress i.operand s = some (ea, crossed)) : StoringForm i := by
  have hsplit : i.entry.mnemonic ∈ ([.STA, .STX, .STY] : List Mnemonic) ∨
      i.entry.mnemonic ∈ ([.ASL, .LSR, .ROL, .ROR] : List Mnemonic) ∨ i.entry.mnemonic ∈ ([.INC, .DEC] : List Mnemonic) := by
    simpa only [storers, List.mem_cons, List.not_mem_nil, or_false, or_assoc] using hm
  rcases hsplit with hstore | hshift | hstep
  · exact .inl hstore
  · rcases shift_form hshift s with hacc | ⟨hrmw, -⟩
    · rw [hacc] at hea; cases hea
    · exact .inr hrmw
  · exact .inr (step_form hstep s).1

theorem not_stkWriter_of_storer {m : Mnemonic} (h : m ∈ storers) : m ∉ stkWriters := by
  revert h; cases m <;> decide

/-- A storing form changes in memory only what its effective address names. -/
theorem exec_storeFrame (h : exec i s = .next t) (hea : effectiveAddress i.operand s = some (ea, crossed))
    (hm : i.entry.mnemonic ∈ storers) : StoreFrame (canon ea) s t := by
  obtain ⟨res, s1, taken, s2, hres, heff, rfl⟩ := exec_next h
  have hread : MemoryKept s s1 := (regs_resolve hres).memoryKept
  rcases (effect_cases heff).memory (not_stkWriter_of_storer hm) with hk | ⟨-, ea', hea', hframe⟩
  · exact ((hread.trans hk).trans memoryKept_account).storeFrame
  · obtain ⟨c, hc⟩ := storer_effectiveAddress hm hres hea'
    cases hea.symm.trans hc
    exact hframe.between hread memoryKept_account

/-- A form that neither stores nor pushes keeps memory. -/
theorem exec_memoryKept (h : exec i s = .next t) (hstore : ¬ StoringForm i) (hpush : i.entry.mnemonic ∉ pushers) :
    MemoryKept s t := by
  obtain ⟨res, s1, taken, s2, hres, heff, rfl⟩ := exec_next h
  have heffect : MemoryKept s1 s2 := by
    by_cases hstk : i.entry.mnemonic ∈ stkWriters
    · exact effect_memory_of_pull heff hstk hpush
    · rcases (effect_cases heff).memory hstk with hk | ⟨hm, ea, hea, -⟩
      · exact hk
      · obtain ⟨c, hc⟩ := storer_effectiveAddress hm hres hea
        exact absurd (storingForm_of_effectiveAddress hm hc) hstore
  exact ((regs_resolve hres).memoryKept.trans heffect).trans memoryKept_account

/-- A pushing instruction changes in memory only the stack cells it pushes to. -/
theorem exec_pushedOnly (h : exec i s = .next t) (hpush : i.entry.mnemonic ∈ pushers) :
    PushedOnly (pushCount i.entry.mnemonic) s t := by
  obtain ⟨res, s1, taken, s2, hres, heff, rfl⟩ := exec_next h
  have hregs := regs_resolve hres
  have hp := (effect_pushes heff hpush).kept (u := account i.entry s.pc res.crossed taken s2) memoryKept_account rfl
  refine ⟨hregs.memoryKept.toVideoKept.trans hp.toVideoKept, by rw [hp.stk, hregs.stk], fun c hc => ?_⟩
  rw [hp.cell c (by rwa [hregs.stk]), hregs.memoryKept.cell]

end

/-! ### The obligations -/

/-- Settles O41: `exec_storeFrame` for memory, `exec_onlyWrites` for the registers, `exec_keeps_pad` for the controller ports. -/
theorem storingFormsKeepEveryOtherByte : Obligations.StoringFormsKeepEveryOtherByte := by
  unfold Obligations.StoringFormsKeepEveryOtherByte
  intro i s t ea crossed h hea hstores
  have hm : i.entry.mnemonic ∈ storers := mem_storers_of_storingForm hstores
  have hf := exec_storeFrame h hea hm
  have hw := exec_onlyWrites h
  have hwriters : ∀ m ∈ storers, m ∉ accWriters ∧ m ∉ xWriters ∧ m ∉ yWriters ∧ m ∉ stkWriters := by decide
  obtain ⟨hnacc, hnx, hny, hnstk⟩ := hwriters _ hm
  have hacc : ¬ (decide (i.operand = .accumulator) = true ∨ i.entry.mnemonic ∈ accWriters) := by
    rintro (ha | ha)
    · rw [of_decide_eq_true ha] at hea; cases hea
    · exact hnacc ha
  refine ⟨fun a => hf.cell (canon a), hf.sprite, fun a => hf.video (vcanon a), hf.latch, hf.toggle,
    hw.acc.resolve_right hacc, hw.x.resolve_right hnx, hw.y.resolve_right hny, hw.stk.resolve_right hnstk, fun p hp => ?_⟩
  refine exec_keeps_pad h p (fun ea' c he => ?_) fun a ha => ?_
  · cases hea.symm.trans he; exact .inr (.inr hp)
  · rw [ha] at hea; cases hea

/-- Settles O42: a form that does not push keeps memory, and one that does writes its stack cells only. -/
theorem otherFormsKeepAllMemory : Obligations.OtherFormsKeepAllMemory := by
  unfold Obligations.OtherFormsKeepAllMemory
  intro i s t h hstore hrmw
  by_cases hpush : i.entry.mnemonic ∈ pushers
  · have hp := exec_pushedOnly h hpush
    exact ⟨⟨hp.video, hp.sprite, hp.latch, hp.toggle⟩, fun hn => absurd hpush hn, fun _ a => hp.cell (canon a)⟩
  · have hk := exec_memoryKept h (not_or.2 ⟨hstore, hrmw⟩) hpush
    exact ⟨⟨hk.video, hk.sprite, hk.latch, hk.toggle⟩, fun _ => hk.cpu, fun hp => absurd hp hpush⟩

end Sys2Proof.Machine

/-! SUPPORT. The opcodes without an instruction: what the decoder answers there, and how many they are. -/

namespace Sys2Proof

/-! ### The bytes without an instruction (30_encoding.md section 4) -/

/-- The opcode bytes of the table, row by row (30_encoding.md R115). -/
def opcodes : List Byte := forms.map (·.entry.opcode)

/-- The dictionary has no entry exactly where no row has the opcode. -/
theorem isNone_dict (op : Byte) : (dict op).isNone = decide (op ∉ opcodes) := by
  rw [Bool.eq_iff_iff, Option.isNone_iff_eq_none, dict, List.find?_eq_none]
  simp [opcodes]

theorem dict_eq_none_iff {op : Byte} : dict op = none ↔ ∀ i : Instr, i.entry.opcode ≠ op := by
  refine ⟨fun hnone i hi => ?_, dict_eq_none⟩
  obtain ⟨f, hd, -⟩ := dictRow i
  rw [hi, hnone] at hd
  cases hd

/-- A byte with an entry never answers `unknownOpcode`: it decodes or is cut short. -/
theorem decode_eq_unknownOpcode_iff {op : Byte} {bs : List Byte} :
    decode (op :: bs) = .error (.unknownOpcode op) ↔ dict op = none := by
  cases hd : dict op with
  | none => simp only [decode, hd]
  | some f =>
    refine iff_of_false (fun h => ?_) (by simp)
    simp only [decode, hd] at h
    split at h
    next => contradiction
    all_goals cases h

theorem length_opcodes : opcodes.length = 151 := by
  rw [opcodes, List.length_map]
  rfl

/-- No two rows of the table share an opcode; a closed fact about 151 bytes, compared as numbers. -/
theorem nodup_opcodes : opcodes.Nodup :=
  List.Nodup.of_map BitVec.toNat (by decide +kernel)

/-- Of the 256 byte values, all but as many as the list is long are not in a list without repetitions. -/
theorem length_filter_notMem {l : List Byte} (hl : l.Nodup) :
    ((List.range 256).filter fun n => BitVec.ofNat 8 n ∉ l).length + l.length = 256 := by
  have hperm : ((List.range 256).filter fun n => BitVec.ofNat 8 n ∈ l).Perm (l.map BitVec.toNat) := by
    refine (List.perm_ext_iff_of_nodup (List.nodup_range.filter _) (hl.map fun a b => BitVec.eq_of_toNat_eq)).2 fun n => ?_
    simp only [List.mem_filter, List.mem_range, decide_eq_true_eq, List.mem_map]
    constructor
    · rintro ⟨hn, hmem⟩
      exact ⟨_, hmem, by simpa using hn⟩
    · rintro ⟨b, hb, rfl⟩
      exact ⟨b.isLt, by simpa using hb⟩
  have hsplit := List.length_eq_length_filter_add (l := List.range 256) fun n => BitVec.ofNat 8 n ∈ l
  rw [List.length_range, hperm.length_eq, List.length_map] at hsplit
  simp only [decide_not]
  omega

/-- Settles O3: the dictionary has every row by its opcode and nothing else; its 151 opcodes are distinct, which leaves 105. -/
theorem unlistedOpcodesAreUnknown : Obligations.UnlistedOpcodesAreUnknown := by
  unfold Obligations.UnlistedOpcodesAreUnknown
  refine ⟨fun op bs => decode_eq_unknownOpcode_iff.trans dict_eq_none_iff, ?_⟩
  have hcount := length_filter_notMem nodup_opcodes
  simp only [isNone_dict]
  rw [length_opcodes] at hcount
  omega

end Sys2Proof

/-! SUPPORT. What the resolver hands to an effect (40_tick_and_addressing.md sections 2 and 3), and what an instruction can raise:
the one inversion of an effect that faults (`effect_faultCase`). -/

namespace Sys2Proof.Machine

/-! ### Mnemonics by what their effect takes from the resolver -/

/-- The mnemonics that read their operand and store nothing at an address. -/
def readers : List Mnemonic := [.LDA, .LDX, .LDY, .ADC, .SBC, .AND, .ORA, .EOR, .BIT, .CMP, .CPX, .CPY]

def stores : List Mnemonic := [.STA, .STX, .STY]

def shifts : List Mnemonic := [.ASL, .LSR, .ROL, .ROR]

def memorySteps : List Mnemonic := [.INC, .DEC]

def pullers : List Mnemonic := [.PLA, .PLP, .RTS, .RTI]

/-- The resolver gave what the effect of `m` takes, so its contract checks (R160) pass. -/
structure Supplied (m : Mnemonic) (res : Addressing) : Prop where
  value : m ∈ readers ++ shifts ++ memorySteps ++ branches → ∃ v, res.value = some v
  ea : m ∈ stores ++ memorySteps ++ jumps → ∃ ea, res.ea = some ea
  shift : m ∈ shifts → res.acc = true ∨ ∃ ea, res.ea = some ea

section
variable {o : Operand} {access : Access} {i : Instr} {s t : State} {res : Addressing} {ea : Nat} {crossed : Bool}

theorem fetchAt_ok (h : fetchAt access ea crossed s = .ok res t) : res.ea = some ea ∧ res.acc = false ∧
    (access = .read ∨ access = .readModifyWrite → ∃ v, res.value = some v) := by
  cases access
  case addressOnly | none => cases h; exact ⟨rfl, rfl, fun ha => by simp at ha⟩
  case read | readModifyWrite =>
    obtain ⟨v, _, _, h⟩ := bind_eq_ok h
    cases h
    exact ⟨rfl, rfl, fun _ => ⟨v, rfl⟩⟩

theorem resolve_ea_ok (hea : effectiveAddress o s = some (ea, crossed)) (h : resolve o access s = .ok res t) :
    res.ea = some ea ∧ res.acc = false ∧ (access = .read ∨ access = .readModifyWrite → ∃ v, res.value = some v) :=
  fetchAt_ok ((resolve_ea hea access).symm.trans h)

theorem fetchAt_completes (h : access = .addressOnly ∨ ea ≤ 0xFFFF) : ∃ res t, fetchAt access ea crossed s = .ok res t := by
  cases access
  case addressOnly | none => exact ⟨_, _, rfl⟩
  case read => exact ⟨_, _, fetchAt_read ea crossed s (h.resolve_left (by decide))⟩
  case readModifyWrite => exact ⟨_, _, fetchAt_rmw ea crossed s (h.resolve_left (by decide))⟩

theorem resolve_value (hm : i.entry.mnemonic ∈ readers ++ shifts ++ memorySteps ++ branches)
    (h : resolve i.operand i.entry.access s = .ok res t) : ∃ v, res.value = some v := by
  simp only [List.mem_append, or_assoc] at hm
  rcases hm with hread | hshift | hstep | hbranch
  · obtain ⟨haccess, ⟨b, hb⟩ | ⟨ea, c, hea⟩⟩ := read_form hread s
    · rw [hb] at h; cases h; exact ⟨b, rfl⟩
    · obtain ⟨-, -, hvalue⟩ := resolve_ea_ok hea h
      exact hvalue (.inl haccess)
  · obtain hacc | ⟨haccess, ea, c, hea⟩ := shift_form hshift s
    · rw [hacc] at h; cases h; exact ⟨s.acc, rfl⟩
    · obtain ⟨-, -, hvalue⟩ := resolve_ea_ok hea h
      exact hvalue (.inr haccess)
  · obtain ⟨haccess, ea, c, hea⟩ := step_form hstep s
    obtain ⟨-, -, hvalue⟩ := resolve_ea_ok hea h
    exact hvalue (.inr haccess)
  · obtain ⟨b, hb⟩ := branch_form hbranch
    rw [hb] at h; cases h; exact ⟨b, rfl⟩

theorem resolve_address (hm : i.entry.mnemonic ∈ stores ++ memorySteps ++ jumps)
    (h : resolve i.operand i.entry.access s = .ok res t) : ∃ ea, res.ea = some ea := by
  simp only [List.mem_append, or_assoc] at hm
  rcases hm with hstore | hstep | hjump
  · obtain ⟨-, ea, c, hea⟩ := store_form hstore s
    exact ⟨ea, (resolve_ea_ok hea h).1⟩
  · obtain ⟨-, ea, c, hea⟩ := step_form hstep s
    exact ⟨ea, (resolve_ea_ok hea h).1⟩
  · rcases jump_form hjump with ⟨a, ha⟩ | ⟨a, ha⟩ <;> rw [ha] at h
    · exact ⟨a.toNat, (resolve_ea_ok rfl h).1⟩
    · obtain ⟨_, _, _, h⟩ := bind_eq_ok h
      obtain ⟨_, _, _, h⟩ := bind_eq_ok h
      cases h
      exact ⟨_, rfl⟩

theorem resolve_shift (hm : i.entry.mnemonic ∈ shifts) (h : resolve i.operand i.entry.access s = .ok res t) :
    res.acc = true ∨ ∃ ea, res.ea = some ea := by
  obtain hacc | ⟨-, ea, c, hea⟩ := shift_form hm s
  · rw [hacc] at h; cases h; exact .inl rfl
  · exact .inr ⟨ea, (resolve_ea_ok hea h).1⟩

theorem resolve_supplied (h : resolve i.operand i.entry.access s = .ok res t) : Supplied i.entry.mnemonic res :=
  ⟨fun hm => resolve_value hm h, fun hm => resolve_address hm h, fun hm => resolve_shift hm h⟩

end

/-! ### What an operation can raise -/

/-- A fault that `m` at address `pc0` can raise (60_exceptions.md R320). -/
inductive FaultCase (m : Mnemonic) (pc0 : Int) : Fault → Prop
  | offBus {a : Int} (h : a < 0 ∨ 0xFFFF < a) : FaultCase m pc0 (.addressOutOfRange a)
  | overflow (hm : m ∈ pushers) : FaultCase m pc0 (.stackOverflow pc0)
  | underflow (hm : m ∈ pullers) : FaultCase m pc0 (.stackUnderflow pc0)

section
variable {m : Mnemonic} {pc0 : Int} {site : Site} {res : Addressing} {s t : State} {f : Fault}

theorem outcome_eq_fault {α : Type} {r : Res α} (h : r.outcome = .fault f) : ∃ t, r = .raise f t := by
  cases r with
  | ok a s => cases h
  | raise g s => cases h; exact ⟨s, rfl⟩

theorem raise_of_bind_ok {α β : Type} {r : Res α} {b : α → State → β} {k : α → State → State}
    (h : (r.bind fun a u => .ok (b a u) (k a u)) = .raise f t) : r = .raise f t := by
  rcases bind_eq_raise h with h | ⟨_, _, _, h⟩
  · exact h
  · cases h

theorem withValue_some {α : Type} {k : Byte → Res α} {v : Byte} (hv : res.value = some v) : withValue site res s k = k v := by
  rw [withValue, hv]

theorem withEa_some {α : Type} {k : Nat → Res α} {ea : Nat} (hea : res.ea = some ea) : withEa site res s k = k ea := by
  rw [withEa, hea]

theorem withValue_raise {α : Type} {k : Byte → Res α} (hv : ∃ v, res.value = some v) (h : withValue site res s k = .raise f t) :
    ∃ v, k v = .raise f t := by
  obtain ⟨v, hv⟩ := hv
  exact ⟨v, (withValue_some hv).symm.trans h⟩

theorem withEa_raise {α : Type} {k : Nat → Res α} (hea : ∃ ea, res.ea = some ea) (h : withEa site res s k = .raise f t) :
    ∃ ea, k ea = .raise f t := by
  obtain ⟨ea, hea⟩ := hea
  exact ⟨ea, (withEa_some hea).symm.trans h⟩

theorem memRead_faultCase {a : Int} (h : memRead a s = .raise f t) : FaultCase m pc0 f := by
  obtain ⟨rfl, ha⟩ := memRead_fault h
  exact .offBus ha

theorem memWrite_faultCase {a : Int} {v : Byte} (h : memWrite a v s = .raise f t) : FaultCase m pc0 f := by
  obtain ⟨_, rfl, ha⟩ := memWrite_fault h
  exact .offBus ha

theorem push_faultCase {v : Byte} (hm : m ∈ pushers) (h : push pc0 v s = .raise f t) : FaultCase m pc0 f := by
  cases push_fault h; exact .overflow hm

theorem pull_faultCase (hm : m ∈ pullers) (h : pull pc0 s = .raise f t) : FaultCase m pc0 f := by
  cases pull_fault h; exact .underflow hm

theorem pushAddress_faultCase {v : Int} (hm : m ∈ pushers) (h : pushAddress pc0 v s = .raise f t) : FaultCase m pc0 f := by
  cases pushAddress_fault h; exact .overflow hm

theorem pullAddress_faultCase (hm : m ∈ pullers) (h : pullAddress pc0 s = .raise f t) : FaultCase m pc0 f := by
  cases pullAddress_fault h; exact .underflow hm

theorem memRead16_faultCase {a : Int} (h : memRead16 a s = .raise f t) : FaultCase m pc0 f := by
  rcases bind_eq_raise h with h | ⟨_, _, _, h⟩
  · exact memRead_faultCase h
  · exact memRead_faultCase (raise_of_bind_ok h)

theorem enterInterrupt_faultCase {ret vector : Int} {b : Bool} (hm : m ∈ pushers)
    (h : enterInterrupt pc0 ret b vector s = .raise f t) : FaultCase m pc0 f := by
  rcases bind_eq_raise h with h | ⟨_, _, _, h⟩
  · exact pushAddress_faultCase hm h
  rcases bind_eq_raise h with h | ⟨_, _, _, h⟩
  · exact push_faultCase hm h
  · exact memRead16_faultCase (raise_of_bind_ok h)

theorem returnFromInterrupt_faultCase (hm : m ∈ pullers) (h : returnFromInterrupt pc0 s = .raise f t) : FaultCase m pc0 f := by
  rcases bind_eq_raise h with h | ⟨_, _, _, h⟩
  · exact pull_faultCase hm h
  · exact pullAddress_faultCase hm (raise_of_bind_ok h)

theorem resolve_faultCase {o : Operand} {access : Access} (h : resolve o access s = .raise f t) : FaultCase m pc0 f := by
  have hfetch : ∀ ea c u, fetchAt access ea c u = .raise f t → FaultCase m pc0 f := by
    intro ea c u h
    cases access
    case addressOnly | none => cases h
    case read | readModifyWrite => exact memRead_faultCase (raise_of_bind_ok h)
  cases o
  case implicit | accumulator | immediate | relative => cases h
  case indirect =>
    rcases bind_eq_raise h with h | ⟨_, _, _, h⟩
    · exact memRead_faultCase h
    · exact memRead_faultCase (raise_of_bind_ok h)
  all_goals exact hfetch _ _ _ h

/-! ### What an effect can raise -/

theorem reads_raise_nothing {b : Byte → Bool} {k : Byte → State} (hv : ∃ v, res.value = some v)
    (h : (withValue site res s fun v => .ok (b v) (k v)) = .raise f t) : False := by
  obtain ⟨v, h⟩ := withValue_raise hv h
  cases h

theorem branch_raises_nothing {g : Flag} {want : Bool} (hv : ∃ v, res.value = some v)
    (h : branch g want site res s = .raise f t) : False := by
  obtain ⟨v, h⟩ := withValue_raise hv h
  split at h <;> cases h

theorem storeAt_faultCase {v : Byte} (hea : ∃ ea, res.ea = some ea) (h : storeAt site res v s = .raise f t) :
    FaultCase m pc0 f := by
  obtain ⟨ea, h⟩ := withEa_raise hea h
  exact memWrite_faultCase (raise_of_bind_ok h)

theorem stepMemory_faultCase {d : Int} (hv : ∃ v, res.value = some v) (hea : ∃ ea, res.ea = some ea)
    (h : stepMemory d site res s = .raise f t) : FaultCase m pc0 f := by
  obtain ⟨v, h⟩ := withValue_raise hv h
  obtain ⟨ea, h⟩ := withEa_raise hea h
  exact memWrite_faultCase (raise_of_bind_ok h)

theorem shiftOp_faultCase {kind : Byte → Bool → Byte × Bool} (hv : ∃ v, res.value = some v)
    (hshift : res.acc = true ∨ ∃ ea, res.ea = some ea) (h : shiftOp kind site res s = .raise f t) : FaultCase m pc0 f := by
  obtain ⟨v, h⟩ := withValue_raise hv h
  dsimp only at h
  split at h
  next => cases h
  next hacc =>
    obtain ⟨ea, h⟩ := withEa_raise (hshift.resolve_left hacc) h
    exact memWrite_faultCase (raise_of_bind_ok h)

/-- The inversion of an effect that faults, by the operation its mnemonic runs; no contract check (R160) is among the cases. -/
theorem effect_faultCase (hs : Supplied m res) (h : effectOf m site res s = .raise f t) : FaultCase m site.pc0 f := by
  cases m
  case LDA | LDX | LDY | ADC | SBC | AND | ORA | EOR | BIT | CMP | CPX | CPY =>
    exact (reads_raise_nothing (hs.value (by decide)) h).elim
  case BCC | BCS | BEQ | BNE | BMI | BPL | BVC | BVS => exact (branch_raises_nothing (hs.value (by decide)) h).elim
  case STA | STX | STY => exact storeAt_faultCase (hs.ea (by decide)) h
  case INC | DEC => exact stepMemory_faultCase (hs.value (by decide)) (hs.ea (by decide)) h
  case ASL | LSR | ROL | ROR => exact shiftOp_faultCase (hs.value (by decide)) (hs.shift (by decide)) h
  case INX | INY | DEX | DEY | CLC | SEC | CLI | SEI | CLD | SED | CLV | TAX | TAY | TXA | TYA | TSX | TXS | NOP => cases h
  case PHA | PHP => exact push_faultCase (by decide) (raise_of_bind_ok h)
  case PLA | PLP => exact pull_faultCase (by decide) (raise_of_bind_ok h)
  case JMP =>
    obtain ⟨ea, h⟩ := withEa_raise (hs.ea (by decide)) h
    cases h
  case JSR =>
    obtain ⟨ea, h⟩ := withEa_raise (hs.ea (by decide)) h
    exact pushAddress_faultCase (by decide) (raise_of_bind_ok h)
  case RTS => exact pullAddress_faultCase (by decide) (raise_of_bind_ok h)
  case BRK => exact enterInterrupt_faultCase (by decide) (raise_of_bind_ok h)
  case RTI => exact returnFromInterrupt_faultCase (by decide) (raise_of_bind_ok h)

/-- A meaning that faults did so in the resolver or in its effect. -/
theorem exec_faultCase {i : Instr} (h : exec i s = .fault f) : FaultCase i.entry.mnemonic s.pc f := by
  rw [exec_eq, runTick_eq] at h
  obtain ⟨_, h⟩ := outcome_eq_fault h
  rcases bind_eq_raise h with h | ⟨res, s1, hres, h⟩
  · exact resolve_faultCase h
  · exact effect_faultCase (resolve_supplied hres) (raise_of_bind_ok h)

end

/-- Settles O13: the cases of `exec_faultCase`. -/
theorem faultsAnInstructionCanRaise : Obligations.FaultsAnInstructionCanRaise := by
  unfold Obligations.FaultsAnInstructionCanRaise
  intro i s f h
  cases exec_faultCase h with
  | offBus ha => exact .inl ⟨_, rfl, ha⟩
  | overflow hm => exact .inr (.inl ⟨rfl, hm⟩)
  | underflow hm => exact .inr (.inr ⟨rfl, hm⟩)

end Sys2Proof.Machine

/-! SUPPORT. An operand or a latched video address past 0xFFFF: where the tick stops. -/

namespace Sys2Proof.Machine

section
variable {m : Mnemonic} {site : Site} {i : Instr} {s s1 u : State} {res : Addressing} {ea : Nat} {crossed : Bool} {f : Fault}

/-! ### From a faulting part to the fault of the instruction -/

theorem exec_fault_of_resolve (h : resolve i.operand i.entry.access s = raiseFault f u) : exec i s = .fault f := by
  rw [exec_eq, runTick_eq, h, bind_raiseFault, outcome_raiseFault]

theorem exec_fault_of_effect (hres : resolve i.operand i.entry.access s = .ok res s1)
    (h : effectOf i.entry.mnemonic { op := i.entry.opcode, pc0 := s.pc } res s1 = raiseFault f u) : exec i s = .fault f := by
  rw [exec_of_resolve hres, h, bind_raiseFault, outcome_raiseFault]

theorem fetchAt_off_bus {access : Access} (h : access = .read ∨ access = .readModifyWrite) (hea : 0xFFFF < ea) :
    fetchAt access ea crossed s = raiseFault (.addressOutOfRange ea) s := by
  have hread : memRead ea s = raiseFault (.addressOutOfRange ea) s := memRead_off_bus s (.inr (by omega))
  rcases h with rfl | rfl <;> rw [fetchAt, hread, bind_raiseFault]

/-! ### An effect whose write faults -/

section
variable (hea : res.ea = some ea) (hw : ∀ v u, u.vaddrLatch = s.vaddrLatch → memWrite ea v u = raiseFault f u)
include hea hw

theorem withEa_write_fault {v : Byte} {k : Unit → State → Res Bool} (hu : u.vaddrLatch = s.vaddrLatch) :
    (withEa site res u fun ea => (memWrite ea v u).bind k) = raiseFault f u := by
  rw [withEa_some hea, hw v u hu, bind_raiseFault]

theorem storeAt_fault (v : Byte) : ∃ u, storeAt site res v s = raiseFault f u :=
  ⟨s, withEa_write_fault hea hw rfl⟩

theorem stepMemory_fault (hv : ∃ v, res.value = some v) (d : Int) : ∃ u, stepMemory d site res s = raiseFault f u := by
  obtain ⟨v, hv⟩ := hv
  rw [stepMemory, withValue_some hv]
  exact ⟨_, withEa_write_fault hea hw rfl⟩

theorem shiftOp_fault (hv : ∃ v, res.value = some v) (hacc : res.acc = false) (kind : Byte → Bool → Byte × Bool) :
    ∃ u, shiftOp kind site res s = raiseFault f u := by
  obtain ⟨v, hv⟩ := hv
  simp only [shiftOp, withValue_some hv, hacc, Bool.false_eq_true, if_false]
  exact ⟨_, withEa_write_fault hea hw rfl⟩

theorem effect_write_fault (hm : m ∈ storers) (hs : Supplied m res) (hacc : res.acc = false) :
    ∃ u, effectOf m site res s = raiseFault f u := by
  cases m
  case STA | STX | STY => exact storeAt_fault hea hw _
  case INC | DEC => exact stepMemory_fault hea hw (hs.value (by decide)) _
  case ASL | LSR | ROL | ROR => exact shiftOp_fault hea hw (hs.value (by decide)) hacc _
  all_goals exact absurd hm (by decide)

end

/-- A storing instruction whose operand is resolved faults as its write does. -/
theorem exec_write_fault (hm : i.entry.mnemonic ∈ storers) (hea : effectiveAddress i.operand s = some (ea, crossed))
    (haccess : i.entry.access = .addressOnly ∨ ea ≤ 0xFFFF)
    (hw : ∀ v u, u.vaddrLatch = s.vaddrLatch → memWrite ea v u = raiseFault f u) : exec i s = .fault f := by
  obtain ⟨res, s1, hfetch⟩ := fetchAt_completes (crossed := crossed) (s := s.advance i.operand) haccess
  have hres : resolve i.operand i.entry.access s = .ok res s1 := (resolve_ea hea _).trans hfetch
  obtain ⟨hresEa, hacc, -⟩ := resolve_ea_ok hea hres
  have hlatch : s1.vaddrLatch = s.vaddrLatch := (regs_resolve hres).latch
  obtain ⟨u, heff⟩ := effect_write_fault hresEa (fun v u hu => hw v u (hu.trans hlatch)) hm (resolve_supplied hres) hacc
  exact exec_fault_of_effect hres heff

/-- What an instruction other than a jump does at its effective address. -/
theorem access_of_effectiveAddress (hea : effectiveAddress i.operand s = some (ea, crossed)) (hjmp : i.entry.mnemonic ≠ .JMP)
    (hjsr : i.entry.mnemonic ≠ .JSR) :
    i.entry.mnemonic ∈ stores ∨ i.entry.access = .read ∨ i.entry.access = .readModifyWrite := by
  cases i <;> first
    | exact .inl (of_decide_eq_true rfl)
    | exact .inr (.inl rfl)
    | exact .inr (.inr rfl)
    | exact absurd rfl hjmp
    | exact absurd rfl hjsr
    | cases hea

end

/-- Settles O38: the read of the operand faults, or the write does, at the address or (through the video-data port) at the latch. -/
theorem operandsPastTheBusFault : Obligations.OperandsPastTheBusFault := by
  unfold Obligations.OperandsPastTheBusFault
  intro i s ea crossed hea
  refine ⟨fun hpast hjmp hjsr => ?_, fun hle hcell hlatch hstores => ?_⟩
  · rcases access_of_effectiveAddress hea hjmp hjsr with hstore | hread
    · refine exec_write_fault (mem_storers_of_storingForm (.inl hstore)) hea (.inl (store_form hstore s).1) fun v u _ => ?_
      rw [memWrite_eq, if_neg (by omega)]
    · exact exec_fault_of_resolve ((resolve_ea hea _).trans (fetchAt_off_bus hread hpast))
  · refine exec_write_fault (mem_storers_of_storingForm hstores) hea (.inr hle) fun v u hu => ?_
    rw [memWrite_eq, if_pos (by omega), Int.toNat_natCast, if_pos ⟨hcell, by omega⟩, hu]

end Sys2Proof.Machine

/-! SUPPORT. The rules of the addressing modes and the accounting of the tick (40_tick_and_addressing.md). -/

namespace Sys2Proof.Machine

/-! ### Which branch is taken (47_branch.md) -/

/-- The instruction is a branch whose flag has the wanted value. -/
def takesBranch : Mnemonic → State → Bool
  | .BCC, s => s.flag .C == false
  | .BCS, s => s.flag .C == true
  | .BNE, s => s.flag .Z == false
  | .BEQ, s => s.flag .Z == true
  | .BPL, s => s.flag .N == false
  | .BMI, s => s.flag .N == true
  | .BVC, s => s.flag .V == false
  | .BVS, s => s.flag .V == true
  | _, _ => false

section
variable {m : Mnemonic} {site : Site} {res : Addressing} {s t : State} {taken : Bool}

theorem mem_branches_of_takesBranch (h : takesBranch m s = true) : m ∈ branches := by
  cases m <;> first
    | exact of_decide_eq_true rfl
    | cases h

theorem branch_taken {f : Flag} {want : Bool} (h : branch f want site res s = .ok taken t) : taken = (s.flag f == want) := by
  obtain ⟨_, -, h⟩ := withValue_ok h
  split at h
  next heq => cases h; exact (beq_iff_eq.2 heq).symm
  next hne => cases h; exact (beq_eq_false_iff_ne.2 hne).symm

/-- An effect that completes answers whether it is a taken branch. -/
theorem effect_taken (h : effectOf m site res s = .ok taken t) : taken = takesBranch m s := by
  by_cases hm : m ∈ branches
  · cases m
    case BCC | BCS | BEQ | BNE | BMI | BPL | BVC | BVS => exact branch_taken h
    all_goals exact absurd hm (by decide)
  · have htaken : taken ≠ true := fun ht => hm (by subst ht; exact (effect_cases h).taken)
    have htakes : takesBranch m s ≠ true := fun ht => hm (mem_branches_of_takesBranch ht)
    rw [Bool.eq_false_iff.2 htaken, Bool.eq_false_iff.2 htakes]

theorem takesBranch_congr (h : t.status = s.status) : takesBranch m t = takesBranch m s := by
  cases m <;> simp only [takesBranch, State.flag, h]

theorem takesBranch_iff : takesBranch m s = true ↔
    (m = .BCC ∧ s.flag .C = false) ∨ (m = .BCS ∧ s.flag .C = true) ∨ (m = .BNE ∧ s.flag .Z = false) ∨
    (m = .BEQ ∧ s.flag .Z = true) ∨ (m = .BPL ∧ s.flag .N = false) ∨ (m = .BMI ∧ s.flag .N = true) ∨
    (m = .BVC ∧ s.flag .V = false) ∨ (m = .BVS ∧ s.flag .V = true) := by
  cases m <;> simp [takesBranch]

end

/-- Settles O14: neither the resolver nor the effect moves CYC or the trace, and the effect answers `takesBranch`. -/
theorem tickAccountsCyclesAndTrace : Obligations.TickAccountsCyclesAndTrace := by
  unfold Obligations.TickAccountsCyclesAndTrace
  intro i s t res s1 hres h
  obtain ⟨res', s1', taken, s2, hres', heff, rfl⟩ := exec_next h
  cases hres.symm.trans hres'
  have hk : Kept s s2 := (kept_resolve hres).trans (effect_cases heff).kept
  have htaken : taken = takesBranch i.entry.mnemonic s :=
    (effect_taken heff).trans (takesBranch_congr (regs_resolve hres).status)
  constructor
  · simp only [← takesBranch_iff, ← htaken]
    rw [account_cyc, realizedCycles, hk.cyc]
    omega
  · rw [← hk.trace]
    rfl

/-! ### Page crosses -/

/-- Adding an index byte changes the high byte exactly where it carries out of the low one. -/
theorem carry_eq_highByteChanged {base k ea : Nat} (hk : k < 256) (hea : ea = base + k) :
    decide (base % 256 + k > 0xFF) = decide (ea / 256 ≠ base / 256) := by
  rw [decide_eq_decide]
  omega

theorem addressOf_mod (lo hi : Byte) : addressOf lo hi % 256 = lo.toNat := by
  have := lo.isLt
  unfold addressOf
  omega

/-- Settles O15: the three indexed modes are sums of a base and a byte; the other modes report no cross. -/
theorem pageCrossMeansHighByteChanged : Obligations.PageCrossMeansHighByteChanged := by
  unfold Obligations.PageCrossMeansHighByteChanged
  intro o s ea crossed h
  refine ⟨?absoluteX, ?absoluteY, ?indirectIndexed, ?otherModes⟩
  case absoluteX =>
    rintro a rfl
    cases h
    rw [toNat_lowByte]
    exact ⟨rfl, rfl, carry_eq_highByteChanged s.x.isLt rfl⟩
  case absoluteY =>
    rintro a rfl
    cases h
    rw [toNat_lowByte]
    exact ⟨rfl, rfl, carry_eq_highByteChanged s.y.isLt rfl⟩
  case indirectIndexed =>
    rintro b rfl
    cases h
    refine ⟨rfl, rfl, ?_⟩
    have hcarry := carry_eq_highByteChanged (base := addressOf (s.peek b.toNat) (s.peek ((b.toNat + 1) % 256))) s.y.isLt rfl
    rw [addressOf_mod] at hcarry
    exact hcarry
  case otherModes =>
    intro hx hy hind
    cases o
    case absoluteX a => exact absurd rfl (hx a)
    case absoluteY a => exact absurd rfl (hy a)
    case indirectIndexed b => exact absurd rfl (hind b)
    case implicit | accumulator | immediate | relative | indirect => cases h
    case zeroPage | zeroPageX | zeroPageY | absolute | indexedIndirect => cases h; rfl

/-! ### The rules of the modes -/

theorem memRead_zeroPage (n : Nat) (s : State) (h : n < 256) : memRead n s = .ok (s.peek n) s := by
  rw [memRead_ram n s (by omega), State.peek, canon_ram n (by omega)]

/-- Settles O16: the modes are `fetchAt` at their effective address; the bytes of a zero-page pointer are plain reads, and the
pointer bytes of Indirect lie on one page. -/
theorem resolverFollowsTheModeRules : Obligations.ResolverFollowsTheModeRules := by
  unfold Obligations.ResolverFollowsTheModeRules
  intro access s b a s2 s3
  have hb := b.isLt
  refine ⟨rfl, rfl, rfl, rfl, ?absoluteX, ?absoluteY, ?indexedIndirect, ?indirectIndexed, ?indirect⟩
  case absoluteX => rw [← toNat_lowByte]; rfl
  case absoluteY => rw [← toNat_lowByte]; rfl
  case indexedIndirect =>
    rw [memRead_zeroPage _ s2 (by omega), bind_ok, memRead_zeroPage _ s2 (by omega), bind_ok]
    rfl
  case indirectIndexed =>
    rw [memRead_zeroPage _ s2 hb, bind_ok, memRead_zeroPage _ s2 (by omega), bind_ok]
    rfl
  case indirect =>
    have hhigh : addressOf (lowByte a + 1) (highByte a) = (a.toNat % 256 + 1) % 256 + 256 * (a.toNat / 256) := by
      rw [addressOf_next]
      split <;> omega
    rw [← hhigh, ← addressOf_low_high a]
    rfl

end Sys2Proof.Machine

/-! SUPPORT. Completion: the forward direction of `exec_next`, for an operand that is read and for a store (41_load_store.md). -/

namespace Sys2Proof.Machine

section
variable {m : Mnemonic} {i : Instr} {s s1 t : State} {res : Addressing} {taken : Bool}

/-! ### From the parts of the tick to the instruction -/

theorem exec_completes (hres : resolve i.operand i.entry.access s = .ok res s1)
    (heff : effectOf i.entry.mnemonic { op := i.entry.opcode, pc0 := s.pc } res s1 = .ok taken t) :
    exec i s = .next (account i.entry s.pc res.crossed taken t) := by
  rw [exec_of_resolve hres, heff, bind_ok, outcome_ok]

/-- A reader whose effect is `result` of the operand byte completes; `post` may speak of the registers and flags before the tick,
which the operand read keeps. -/
theorem completesRead_of_result {result : Byte → State → State} {post : Byte → State → State → Prop}
    (hmn : i.entry.mnemonic = m) (hm : m ∈ readers)
    (heff : ∀ site res u, effectOf m site res u = withValue site res u fun v => .ok false (result v u))
    (hpost : ∀ v u, Regs s u → post v u (result v u)) : CompletesRead i s post := by
  subst hmn
  obtain ⟨haccess, -⟩ := read_form hm s
  have hexec : ∀ res v u, res.value = some v → resolve i.operand i.entry.access s = .ok res u →
      ∃ t, post v u t ∧ exec i s = .next (account i.entry s.pc res.crossed false t) := fun res v u hv hres =>
    ⟨_, hpost v u (regs_resolve hres), exec_completes hres ((heff _ _ _).trans (withValue_some hv))⟩
  constructor
  · intro b hb
    rw [hb]
    exact hexec _ b _ rfl (by rw [hb]; rfl)
  · intro ea crossed hea hle
    exact hexec _ _ _ rfl (by rw [resolve_ea hea, haccess, fetchAt_read ea crossed _ hle])

/-- A store of the register `reg` completes: its address is not read, so the write runs from the state with PC past the
instruction. -/
theorem completesStore_of_storeAt {reg : State → Byte} (hmn : i.entry.mnemonic = m) (hm : m ∈ stores)
    (heff : ∀ site res u, effectOf m site res u = storeAt site res (reg u) u)
    (hreg : reg (s.advance i.operand) = reg s) : CompletesStore i s (reg s) := by
  subst hmn
  rintro ea crossed hea ⟨hle, hlatch⟩
  obtain ⟨haccess, -⟩ := store_form hm s
  have hres : resolve i.operand i.entry.access s =
      .ok { value := none, ea := some ea, acc := false, crossed := crossed } (s.advance i.operand) := by
    rw [resolve_ea hea, haccess, fetchAt_addressOnly]
  have hwrite := memWrite_nat ea (reg s) (s.advance i.operand) hle hlatch
  refine ⟨_, hwrite, exec_completes hres ?_⟩
  rw [heff, storeAt, withEa_some rfl, hreg, hwrite, bind_ok]

end

theorem znUpdated_statusZN (v st : Byte) : ZNUpdated v st (statusZN v st) := by
  refine ⟨?zero, ?negative, fun f hZ hN => ?other⟩
  case zero => rw [getFlag_statusZN, if_neg (by decide), if_pos rfl]
  case negative => rw [getFlag_statusZN, if_pos rfl]
  case other => rw [getFlag_statusZN, if_neg hN, if_neg hZ]

/-- Settles O17: the effect of a load is one register and `setZN` of the operand byte. -/
theorem loadsPutTheOperandInTheRegister : Obligations.LoadsPutTheOperandInTheRegister := by
  unfold Obligations.LoadsPutTheOperandInTheRegister
  refine fun i s => ⟨fun hm => ?lda, fun hm => ?ldx, fun hm => ?ldy⟩
  case lda =>
    exact completesRead_of_result (result := fun v u => State.setZN v { u with acc := v }) hm (by decide) (fun _ _ _ => rfl)
      fun v u _ => ⟨rfl, znUpdated_statusZN v u.status⟩
  case ldx =>
    exact completesRead_of_result (result := fun v u => State.setZN v { u with x := v }) hm (by decide) (fun _ _ _ => rfl)
      fun v u _ => ⟨rfl, znUpdated_statusZN v u.status⟩
  case ldy =>
    exact completesRead_of_result (result := fun v u => State.setZN v { u with y := v }) hm (by decide) (fun _ _ _ => rfl)
      fun v u _ => ⟨rfl, znUpdated_statusZN v u.status⟩

/-- Settles O18: the three stores are `storeAt` of a register that advancing PC keeps. -/
theorem storesWriteTheRegister : Obligations.StoresWriteTheRegister := by
  unfold Obligations.StoresWriteTheRegister
  intro i s
  exact ⟨fun hm => completesStore_of_storeAt (reg := State.acc) hm (by decide) (fun _ _ _ => rfl) rfl,
    fun hm => completesStore_of_storeAt (reg := State.x) hm (by decide) (fun _ _ _ => rfl) rfl,
    fun hm => completesStore_of_storeAt (reg := State.y) hm (by decide) (fun _ _ _ => rfl) rfl⟩

end Sys2Proof.Machine

/-! SUPPORT. The add routine that ADC and SBC share: its result byte, its frame and its flags (42_arithmetic.md R210). -/

namespace Sys2Proof.Machine

theorem cvznUpdated_statusZN (c o : Bool) (v st : Byte) : CVZNUpdated c o v st (statusZN v (putFlag .V o (putFlag .C c st))) := by
  refine ⟨?carry, ?overflow, ?zero, ?negative, fun f hC hV hZ hN => ?other⟩
  case carry => rw [getFlag_statusZN, if_neg (by decide), if_neg (by decide), getFlag_putFlag_other _ _ _ _ (by decide),
    getFlag_putFlag_same]
  case overflow => rw [getFlag_statusZN, if_neg (by decide), if_neg (by decide), getFlag_putFlag_same]
  case zero => rw [getFlag_statusZN, if_neg (by decide), if_pos rfl]
  case negative => rw [getFlag_statusZN, if_pos rfl]
  case other => rw [getFlag_statusZN, if_neg hN, if_neg hZ, getFlag_putFlag_other _ _ _ _ hV, getFlag_putFlag_other _ _ _ _ hC]

/-! ### AddCore (R210) -/

theorem addCore_frame (a b : Byte) (c : Bool) (s : State) :
    addCore a b c s = { s with acc := (addCore a b c s).acc, status := (addCore a b c s).status } := rfl

theorem addCore_acc_toNat (a b : Byte) (c : Bool) (s : State) :
    ((addCore a b c s).acc.toNat : Int) = (a.toNat + b.toNat + bitInt c) % 256 :=
  byteOf_toNat _

/-- A sum of two bytes and a carry is below 512, so bit 8 of it is its carry. -/
theorem carryAdd_sum (a b : Byte) (c : Bool) :
    carryAdd (a.toNat + b.toNat + bitInt c) = decide (256 ≤ (a.toNat : Int) + b.toNat + bitInt c) := by
  have ha := a.isLt
  have hb := b.isLt
  have hc : 0 ≤ bitInt c ∧ bitInt c ≤ 1 := by cases c <;> decide
  exact carryAdd_eq _ (by omega) (by omega)

/-- V compares the sign of the result byte with those of the operands. -/
theorem overflowOf_addCore (a b : Byte) (c : Bool) (s : State) : overflowOf a b (a.toNat + b.toNat + bitInt c) =
    decide (a.getLsbD 7 = b.getLsbD 7 ∧ (addCore a b c s).acc.getLsbD 7 ≠ a.getLsbD 7) :=
  overflowOf_decide a b _

theorem addCore_flags (a b : Byte) (c : Bool) (s : State) :
    CVZNUpdated (decide (256 ≤ (a.toNat : Int) + b.toNat + bitInt c))
      (decide (a.getLsbD 7 = b.getLsbD 7 ∧ (addCore a b c s).acc.getLsbD 7 ≠ a.getLsbD 7))
      (addCore a b c s).acc s.status (addCore a b c s).status := by
  rw [← carryAdd_sum, ← overflowOf_addCore]
  exact cvznUpdated_statusZN _ _ _ _

theorem addCore_flag_V (a b : Byte) (c : Bool) (s : State) : (addCore a b c s).flag .V = true ↔
    ¬ (-128 ≤ sext8 a + sext8 b + bitInt c ∧ sext8 a + sext8 b + bitInt c ≤ 127) := by
  obtain ⟨-, hV, -⟩ := addCore_flags a b c s
  rw [State.flag, hV, ← overflowOf_addCore, overflowOf_eq, decide_eq_true_eq]

theorem sum_natCast (a m : Byte) (c : Bool) :
    (a.toNat : Int) + m.toNat + bitInt c = (a.toNat + m.toNat + (if c then 1 else 0) : Nat) := by
  rw [bitInt_eq]
  split <;> rfl

/-! ### The complement turns the sum into a difference (R212) -/

/-- `ACC + ~M + C` is `ACC - M - (1 - C)` and 256. -/
theorem sum_complement (a m : Byte) (c : Bool) :
    (a.toNat : Int) + (~~~m).toNat + bitInt c = a.toNat - m.toNat - (if c then 0 else 1) + 256 := by
  have hm := m.isLt
  rw [toNat_not, bitInt_eq]
  split <;> omega

theorem sext8_complement (m : Byte) : sext8 (~~~m) = -1 - sext8 m := by
  have hm := m.isLt
  rw [sext8_eq, sext8_eq, toNat_not]
  split <;> split <;> omega

theorem signed_sum_complement (a m : Byte) (c : Bool) :
    sext8 a + sext8 (~~~m) + bitInt c = sext8 a - sext8 m - (if c then 0 else 1) := by
  rw [sext8_complement, bitInt_eq]
  split <;> omega

theorem Regs.flag {s t : State} (h : Regs s t) (f : Flag) : t.flag f = s.flag f :=
  congrArg (getFlag f) h.status

/-- Settles O19: the effect of ADC is `addCore` of ACC, the operand and C. -/
theorem adcAddsWithCarry : Obligations.AdcAddsWithCarry := by
  unfold Obligations.AdcAddsWithCarry
  refine fun i s hm => completesRead_of_result (result := fun v u => addCore u.acc v (u.flag .C) u) hm (by decide)
    (fun _ _ _ => rfl) fun v u hregs => ?_
  rw [hregs.acc, hregs.flag]
  have hflags := addCore_flags s.acc v (s.flag .C) u
  have hacc := addCore_acc_toNat s.acc v (s.flag .C) u
  rw [sum_natCast] at hacc
  simp only [sum_natCast, Nat.ofNat_le_cast] at hflags
  exact ⟨addCore_frame .., by exact_mod_cast hacc, hflags⟩

/-- Settles O20: the effect of SBC is `addCore` of ACC, the complement of the operand and C. -/
theorem sbcSubtractsWithBorrow : Obligations.SbcSubtractsWithBorrow := by
  unfold Obligations.SbcSubtractsWithBorrow
  refine fun i s hm => completesRead_of_result (result := fun v u => addCore u.acc (~~~v) (u.flag .C) u) hm (by decide)
    (fun _ _ _ => rfl) fun v u hregs => ?_
  rw [hregs.acc, hregs.flag]
  have hflags := addCore_flags s.acc (~~~v) (s.flag .C) u
  have hacc := addCore_acc_toNat s.acc (~~~v) (s.flag .C) u
  have hV := addCore_flag_V s.acc (~~~v) (s.flag .C) u
  simp only [sum_complement, le_add_iff_nonneg_left] at hflags
  rw [sum_complement, Int.add_emod_right] at hacc
  rw [signed_sum_complement] at hV
  exact ⟨addCore_frame .., hacc, hflags, hV⟩

end Sys2Proof.Machine

/-! SUPPORT. The logical operations (43_logical.md R220 to R223): one completion rule for AND, ORA and EOR, and the flags of BIT. -/

namespace Sys2Proof.Machine

/-! ### AND, ORA, EOR (R220 to R222) -/

theorem logicalResult_znUpdated (v : Byte) (s : State) :
    logicalResult v s = { s with acc := v, status := (logicalResult v s).status } ∧
      ZNUpdated v s.status (logicalResult v s).status :=
  ⟨rfl, znUpdated_statusZN v s.status⟩

/-- A reader whose effect is `logicalResult` of `op` completes; the operand read keeps ACC, so `op` takes the ACC before the tick. -/
theorem completesRead_of_logicalResult {m : Mnemonic} {i : Instr} {s : State} (op : Byte → Byte → Byte)
    (hmn : i.entry.mnemonic = m) (hm : m ∈ readers)
    (heff : ∀ site res u, effectOf m site res u = withValue site res u fun v => .ok false (logicalResult (op u.acc v) u)) :
    CompletesRead i s fun v s1 t =>
      t = { s1 with acc := op s.acc v, status := t.status } ∧ ZNUpdated (op s.acc v) s1.status t.status := by
  refine completesRead_of_result (result := fun v u => logicalResult (op u.acc v) u) hmn hm heff fun v u hregs => ?_
  rw [hregs.acc]
  exact logicalResult_znUpdated (op s.acc v) u

/-- Settles O21: the effects of AND, ORA and EOR are `logicalResult` of the bitwise operation. -/
theorem logicalOperationsCombineIntoAcc : Obligations.LogicalOperationsCombineIntoAcc := by
  unfold Obligations.LogicalOperationsCombineIntoAcc
  refine fun i s => ⟨fun hm => ?and, fun hm => ?ora, fun hm => ?eor⟩
  case and => exact completesRead_of_logicalResult (· &&& ·) hm (by decide) fun _ _ _ => rfl
  case ora => exact completesRead_of_logicalResult (· ||| ·) hm (by decide) fun _ _ _ => rfl
  case eor => exact completesRead_of_logicalResult (· ^^^ ·) hm (by decide) fun _ _ _ => rfl

/-! ### BIT (R223) -/

/-- The state `effBit` makes of the operand byte. -/
def bitResult (v : Byte) (s : State) : State :=
  ((s.setFlag .Z (zeroOf (s.acc &&& v).toNat)).setFlag .V (v.getLsbD 6)).setFlag .N (v.getLsbD 7)

theorem bitResult_frame (v : Byte) (s : State) : bitResult v s = { s with status := (bitResult v s).status } := rfl

theorem bitResult_flag (v : Byte) (s : State) (f : Flag) : (bitResult v s).flag f =
    if f = .N then v.getLsbD 7 else if f = .V then v.getLsbD 6 else if f = .Z then decide (s.acc &&& v = 0) else s.flag f := by
  simp only [bitResult, flag_setFlag, zeroOf_natCast]

/-- Settles O22: the effect of BIT is `bitResult`, whose flags `bitResult_flag` lists; the operand read keeps ACC. -/
theorem bitTestsTheOperand : Obligations.BitTestsTheOperand := by
  unfold Obligations.BitTestsTheOperand
  refine fun i s hm => completesRead_of_result (result := bitResult) hm (by decide) (fun _ _ _ => rfl) fun v u hregs =>
    ⟨bitResult_frame v u, ?zero, ?overflow, ?negative, fun f hZ hV hN => ?other⟩
  case zero => rw [bitResult_flag, if_neg (by decide), if_neg (by decide), if_pos rfl, hregs.acc]
  case overflow => rw [bitResult_flag, if_neg (by decide), if_pos rfl]
  case negative => rw [bitResult_flag, if_pos rfl]
  case other => rw [bitResult_flag, if_neg hN, if_neg hV, if_neg hZ]

end Sys2Proof.Machine

/-! SUPPORT. Shifts and rotates (44_shift_rotate.md R230 to R234): one completion rule for an instruction that reads a byte and writes
it back, and the two branches of `shiftOp`. -/

namespace Sys2Proof.Machine

theorem cznUpdated_statusZN (c : Bool) (v st : Byte) : CZNUpdated c v st (statusZN v (putFlag .C c st)) := by
  refine ⟨?carry, ?zero, ?negative, fun f hC hZ hN => ?other⟩
  case carry => rw [getFlag_statusZN, if_neg (by decide), if_neg (by decide), getFlag_putFlag_same]
  case zero => rw [getFlag_statusZN, if_neg (by decide), if_pos rfl]
  case negative => rw [getFlag_statusZN, if_pos rfl]
  case other => rw [getFlag_statusZN, if_neg hN, if_neg hZ, getFlag_putFlag_other _ _ _ _ hC]

section
variable {m : Mnemonic} {i : Instr} {s : State} {ea : Nat} {crossed : Bool}

/-! ### Reading a byte and writing it back -/

theorem readModifyWrite_of_effectiveAddress (hm : i.entry.mnemonic ∈ shifts ++ memorySteps)
    (hea : effectiveAddress i.operand s = some (ea, crossed)) : i.entry.access = .readModifyWrite := by
  rcases List.mem_append.1 hm with hshift | hstep
  · obtain hacc | ⟨haccess, -⟩ := shift_form hshift s
    · rw [hacc] at hea; cases hea
    · exact haccess
  · exact (step_form hstep s).1

/-- An instruction whose effect writes `result` of the byte read, with STATUS already `newStatus`, completes: the operand read keeps
STATUS and the video latch, so the write is not turned away. -/
theorem completesReadModifyWrite_of_memWrite {result : Byte → Byte} {newStatus : Byte → Byte → Byte}
    {flags : Byte → Byte → Byte → Prop} (hmn : i.entry.mnemonic = m) (hm : m ∈ shifts ++ memorySteps)
    (heff : ∀ site res u v (ea : Nat), Regs s u → res.value = some v → res.acc = false → res.ea = some ea →
      effectOf m site res u =
        (memWrite ea (result v) { u with status := newStatus v u.status }).bind fun _ t => .ok false t)
    (hflags : ∀ v, flags v s.status (newStatus v s.status)) : CompletesReadModifyWrite i s result flags := by
  subst hmn
  rintro ea crossed hea ⟨hle, hlatch⟩
  have hres := resolve_ea hea i.entry.access
  conv_rhs at hres => rw [readModifyWrite_of_effectiveAddress hm hea, fetchAt_rmw ea crossed _ hle]
  have hregs := regs_resolve hres
  generalize busRead ea (s.advance i.operand) = r at hres hregs ⊢
  have hwrite := memWrite_nat ea (result r.1) { r.2 with status := newStatus r.1 s.status } hle
    fun hport => hregs.latch.trans_le (hlatch hport)
  refine ⟨newStatus r.1 s.status, _, hflags r.1, hwrite, exec_completes hres ?_⟩
  rw [heff _ _ _ r.1 ea hregs rfl rfl rfl, hregs.status, hwrite, bind_ok]

/-! ### The two branches of ShiftOp (R230) -/

variable {kind : Byte → Bool → Byte × Bool} {site : Site} {res : Addressing} {v r : Byte} {c : Bool}

theorem shiftOp_accumulator (hv : res.value = some v) (hacc : res.acc = true) (hkind : kind v (s.flag .C) = (r, c)) :
    shiftOp kind site res s = .ok false { s with acc := r, status := statusZN r (putFlag .C c s.status) } := by
  rw [shiftOp, withValue_some hv, hkind]
  exact if_pos hacc

theorem shiftOp_memory (hv : res.value = some v) (hacc : res.acc = false) (hea : res.ea = some ea)
    (hkind : kind v (s.flag .C) = (r, c)) : shiftOp kind site res s =
      (memWrite ea r { s with status := statusZN r (putFlag .C c s.status) }).bind fun _ t => .ok false t := by
  rw [shiftOp, withValue_some hv, hkind, hacc]
  exact withEa_some hea

theorem completesImplicit_of_shiftOp (ho : i.operand = .accumulator) (heff : effectOf i.entry.mnemonic = shiftOp kind)
    (hkind : kind s.acc (s.flag .C) = (r, c)) : CompletesImplicit i s fun s1 t =>
      t = { s1 with acc := r, status := t.status } ∧ CZNUpdated c r s1.status t.status := by
  have hres := resolve_accumulator i.entry.access s
  rw [← ho] at hres
  refine ⟨{ s with pc := s.pc + 1, acc := r, status := statusZN r (putFlag .C c s.status) },
    ⟨rfl, cznUpdated_statusZN c r s.status⟩, exec_completes hres ?_⟩
  rw [heff]
  exact shiftOp_accumulator rfl rfl hkind

/-- `kind` is taken with the old C before the tick, which the operand read keeps. -/
theorem completesReadModifyWrite_of_shiftOp {result : Byte → Byte} {carry : Byte → Bool} (hmn : i.entry.mnemonic = m)
    (hm : m ∈ shifts) (heff : effectOf m = shiftOp kind) (hkind : ∀ v, kind v (s.flag .C) = (result v, carry v)) :
    CompletesReadModifyWrite i s result fun v old new => CZNUpdated (carry v) (result v) old new := by
  refine completesReadModifyWrite_of_memWrite (newStatus := fun v st => statusZN (result v) (putFlag .C (carry v) st)) hmn
    (List.mem_append_left _ hm) (fun site res u v ea hregs hv hacc hea => ?effect)
    fun v => cznUpdated_statusZN (carry v) (result v) s.status
  case effect =>
    rw [heff]
    exact shiftOp_memory hv hacc hea ((congrArg (kind v) (hregs.flag .C)).trans (hkind v))

end

theorem lsrKind_eq (v : Byte) (c : Bool) : lsrKind v c = (v >>> 1, v.getLsbD 0) := rfl

/-- Settles O23: the effects are `shiftOp` of the kinds that `aslKind_eq` to `rorKind_eq` give as shifts of ACC. -/
theorem accumulatorShiftsAndRotates : Obligations.AccumulatorShiftsAndRotates := by
  unfold Obligations.AccumulatorShiftsAndRotates
  refine fun s => ⟨?asl, ?lsr, ?rol, ?ror⟩
  case asl => exact completesImplicit_of_shiftOp rfl rfl (aslKind_eq _ _)
  case lsr => exact completesImplicit_of_shiftOp rfl rfl (lsrKind_eq _ _)
  case rol => exact completesImplicit_of_shiftOp rfl rfl (rolKind_eq _ _)
  case ror => exact completesImplicit_of_shiftOp rfl rfl (rorKind_eq _ _)

/-- Settles O24: the same kinds of the byte read, by the branch of `shiftOp` that writes it back. -/
theorem memoryShiftsAndRotates : Obligations.MemoryShiftsAndRotates := by
  unfold Obligations.MemoryShiftsAndRotates
  refine fun i s => ⟨fun hm => ?asl, fun hm => ?lsr, fun hm => ?rol, fun hm => ?ror⟩
  case asl => exact completesReadModifyWrite_of_shiftOp hm (by decide) rfl fun v => aslKind_eq v _
  case lsr => exact completesReadModifyWrite_of_shiftOp hm (by decide) rfl fun v => lsrKind_eq v _
  case rol => exact completesReadModifyWrite_of_shiftOp hm (by decide) rfl fun v => rolKind_eq v _
  case ror => exact completesReadModifyWrite_of_shiftOp hm (by decide) rfl fun v => rorKind_eq v _

end Sys2Proof.Machine

/-! SUPPORT. The compare routine that CMP, CPX and CPY share: its difference as a byte, its borrow, its flags (45_compare.md R240). -/

namespace Sys2Proof.Machine

/-! ### The difference of two bytes -/

theorem byteOf_difference (a b : Byte) : byteOf ((a.toNat : Int) - b.toNat) = a - b := by
  apply BitVec.eq_of_toNat_eq
  have hlow := byteOf_toNat ((a.toNat : Int) - b.toNat)
  rw [BitVec.toNat_sub]
  omega

/-- A difference of two bytes has a borrow exactly where it is negative, so C is the unsigned comparison (D17). -/
theorem carrySub_difference (a b : Byte) : carrySub ((a.toNat : Int) - b.toNat) = decide (b.toNat ≤ a.toNat) := by
  have ha := a.isLt
  have hb := b.isLt
  rw [carrySub_eq _ (by omega) (by omega)]
  exact decide_eq_decide.2 (by omega)

/-- Z and N of an unbounded result are those of its low byte. -/
theorem statusZN_byteOf (t : Int) (st : Byte) :
    statusZN (byteOf t) st = putFlag .N (negativeOf t) (putFlag .Z (zeroOf t) st) := by
  have hzero : zeroOf ((byteOf t).toNat : Int) = zeroOf t := by rw [zeroOf, byteOf_toNat, Int.emod_emod, zeroOf]
  rw [statusZN, hzero, negativeOf_natCast, negativeOf]

/-! ### Compare (R240) -/

theorem compareFlags_eq (reg v : Byte) (s : State) : compareFlags reg v s =
    { s with status := statusZN (reg - v) (putFlag .C (decide (v.toNat ≤ reg.toNat)) s.status) } := by
  rw [← byteOf_difference, ← carrySub_difference, statusZN_byteOf]
  rfl

/-- A reader whose effect compares the register `reg` with the operand completes; the operand read keeps `reg`. -/
theorem completesRead_of_compareFlags {m : Mnemonic} {i : Instr} {s : State} (reg : State → Byte)
    (hreg : ∀ {u}, Regs s u → reg u = reg s) (hmn : i.entry.mnemonic = m) (hm : m ∈ readers)
    (heff : ∀ site res u, effectOf m site res u = withValue site res u fun v => .ok false (compareFlags (reg u) v u)) :
    CompletesRead i s fun v s1 t => t = { s1 with status := t.status } ∧
      CZNUpdated (decide (v.toNat ≤ (reg s).toNat)) (reg s - v) s1.status t.status := by
  refine completesRead_of_result (result := fun v u => compareFlags (reg u) v u) hmn hm heff fun v u hregs => ?_
  rw [hreg hregs, compareFlags_eq]
  exact ⟨rfl, cznUpdated_statusZN _ _ u.status⟩

/-- Settles O25: the effects are `compareFlags` of ACC, X and Y with the operand. -/
theorem comparesSetCarryZeroNegative : Obligations.ComparesSetCarryZeroNegative := by
  unfold Obligations.ComparesSetCarryZeroNegative
  refine fun i s => ⟨fun hm => ?cmp, fun hm => ?cpx, fun hm => ?cpy⟩
  case cmp => exact completesRead_of_compareFlags State.acc Regs.acc hm (by decide) fun _ _ _ => rfl
  case cpx => exact completesRead_of_compareFlags State.x Regs.x hm (by decide) fun _ _ _ => rfl
  case cpy => exact completesRead_of_compareFlags State.y Regs.y hm (by decide) fun _ _ _ => rfl

end Sys2Proof.Machine

/-! SUPPORT. Increments and decrements (46_incdec.md R250 to R256): the step modulo 256, and one completion rule each for memory and for a
register. -/

namespace Sys2Proof.Machine

theorem stepByte_succ (v : Byte) : stepByte v 1 = v + 1 := byteOf_succ v

section
variable {m : Mnemonic} {i : Instr} {s : State} {site : Site} {res : Addressing} {d : Int}

/-! ### Memory (R251, R252) -/

theorem stepMemory_some {v : Byte} {ea : Nat} (hv : res.value = some v) (hea : res.ea = some ea) : stepMemory d site res s =
    (memWrite ea (stepByte v d) (s.setZN (stepByte v d))).bind fun _ t => .ok false t := by
  rw [stepMemory, withValue_some hv, withEa_some hea]

theorem completesReadModifyWrite_of_stepMemory {result : Byte → Byte} (hmn : i.entry.mnemonic = m) (hm : m ∈ memorySteps)
    (heff : effectOf m = stepMemory d) (hstep : ∀ v, stepByte v d = result v) :
    CompletesReadModifyWrite i s result fun v old new => ZNUpdated (result v) old new := by
  refine completesReadModifyWrite_of_memWrite (newStatus := fun v st => statusZN (result v) st) hmn
    (List.mem_append_right _ hm) (fun site res u v ea _ hv _ hea => ?effect) fun v => znUpdated_statusZN (result v) s.status
  case effect =>
    rw [heff, stepMemory_some hv hea, hstep]
    rfl

/-! ### Registers (R253 to R256) -/

/-- An instruction with no operand completes where its effect, from the state with PC past the instruction, answers `t`. -/
theorem completesImplicit_of_effect {t : State} {post : State → State → Prop} (ho : i.operand = .implicit)
    (heff : ∀ site res, effectOf i.entry.mnemonic site res { s with pc := s.pc + 1 } = .ok false t)
    (hpost : post { s with pc := s.pc + 1 } t) : CompletesImplicit i s post := by
  refine ⟨t, hpost, ?_⟩
  rw [exec_implicit ho, heff, bind_ok, outcome_ok]

/-- `put` puts a byte in the stepped register; `v` is the register before the step, `r` after it. -/
theorem completesImplicit_of_stepByte {v r : Byte} (put : Byte → State → State) (ho : i.operand = .implicit)
    (hstep : stepByte v d = r)
    (heff : ∀ site res, effectOf i.entry.mnemonic site res { s with pc := s.pc + 1 } =
      .ok false ((put (stepByte v d) { s with pc := s.pc + 1 }).setZN (stepByte v d)))
    (hput : ∀ u, (put r u).status = u.status) : CompletesImplicit i s fun s1 t =>
      t = { put r s1 with status := t.status } ∧ ZNUpdated r s1.status t.status := by
  subst hstep
  refine completesImplicit_of_effect ho heff ⟨rfl, ?_⟩
  rw [setZN_status, hput]
  exact znUpdated_statusZN _ _

end

/-- Settles O26: both effects are `stepMemory`, of the steps that `stepByte_succ` and `stepByte_pred` give modulo 256. -/
theorem incAndDecStepMemory : Obligations.IncAndDecStepMemory := by
  unfold Obligations.IncAndDecStepMemory
  refine fun i s => ⟨fun hm => ?inc, fun hm => ?dec⟩
  case inc => exact completesReadModifyWrite_of_stepMemory hm (by decide) rfl stepByte_succ
  case dec => exact completesReadModifyWrite_of_stepMemory hm (by decide) rfl stepByte_pred

/-- Settles O27: the same steps of X and Y, put back with `setZN`. -/
theorem registerStepsWrap : Obligations.RegisterStepsWrap := by
  unfold Obligations.RegisterStepsWrap
  refine fun s => ⟨?inx, ?iny, ?dex, ?dey⟩
  case inx =>
    exact completesImplicit_of_stepByte (fun v u => { u with x := v }) rfl (stepByte_succ s.x) (fun _ _ => rfl) fun _ => rfl
  case iny =>
    exact completesImplicit_of_stepByte (fun v u => { u with y := v }) rfl (stepByte_succ s.y) (fun _ _ => rfl) fun _ => rfl
  case dex =>
    exact completesImplicit_of_stepByte (fun v u => { u with x := v }) rfl (stepByte_pred s.x) (fun _ _ => rfl) fun _ => rfl
  case dey =>
    exact completesImplicit_of_stepByte (fun v u => { u with y := v }) rfl (stepByte_pred s.y) (fun _ _ => rfl) fun _ => rfl

end Sys2Proof.Machine

/-! SUPPORT. The branches (47_branch.md R260 to R268): the two outcomes of the branch routine and one completion rule for all eight. -/

namespace Sys2Proof.Machine

section
variable {f : Flag} {want : Bool} {site : Site} {res : Addressing} {i : Instr} {s : State} {v : Byte}

/-! ### The two outcomes of Branch (R260) -/

theorem branch_of_flag_eq (hv : res.value = some v) (hflag : s.flag f = want) :
    branch f want site res s = .ok true { s with pc := s.pc + sext8 v } := by
  rw [branch, withValue_some hv, if_pos hflag]

theorem branch_of_flag_ne (hv : res.value = some v) (hflag : s.flag f ≠ want) : branch f want site res s = .ok false s := by
  rw [branch, withValue_some hv, if_neg hflag]

/-- Relative resolves to the offset byte with only PC moved, so the flag tested is the one before the tick. -/
theorem completesBranch_of_branch (heff : effectOf i.entry.mnemonic = branch f want) : CompletesBranch i s f want := by
  intro b ho
  have hres := resolve_relative b i.entry.access s
  rw [← ho] at hres
  refine ⟨fun hflag => exec_completes hres ?taken, fun hflag => exec_completes hres ?notTaken⟩
  case taken => exact heff ▸ branch_of_flag_eq rfl hflag
  case notTaken => exact heff ▸ branch_of_flag_ne rfl hflag

end

/-- Settles O28: each effect is `branch` of the flag and the value wanted (R261 to R268). -/
theorem branchesTestTheirFlag : Obligations.BranchesTestTheirFlag := by
  unfold Obligations.BranchesTestTheirFlag
  refine fun i s => ⟨fun hm => ?bcc, fun hm => ?bcs, fun hm => ?beq, fun hm => ?bne, fun hm => ?bmi, fun hm => ?bpl,
    fun hm => ?bvc, fun hm => ?bvs⟩
  case bcc | bcs | beq | bne | bmi | bpl | bvc | bvs => exact completesBranch_of_branch (congrArg effectOf hm)

end Sys2Proof.Machine

/-! SUPPORT. The encoder against the decoder (30_encoding.md sections 1 to 3), and the fetch of an encoded instruction. -/

namespace Sys2Proof

/-! ### The operand bytes of a form (30_encoding.md R112) -/

/-- The members of the form are spelled by their operand bytes, low byte first. -/
def Form.Spelled : Form → Prop
  | .bare i => i.operand.bytes = []
  | .byte f => ∀ b, (f b).operand.bytes = [b]
  | .word f => ∀ a, (f a).operand.bytes = [lowByte a, highByte a]

theorem forms_spelled : ∀ f ∈ forms, f.Spelled := by
  simp only [forms, formsLoadStore, formsArithmetic, formsLogical, formsShift, formsCompare, formsIncDec, formsBranch,
    formsStack, formsFlagsTransfer, List.forall_mem_append, List.forall_mem_cons, Form.Spelled, List.not_mem_nil,
    false_implies, implies_true, and_true]
  repeat' apply And.intro
  all_goals intros; rfl

theorem dict_spelled {op : Byte} {f : Form} (hd : dict op = some f) : f.Spelled := forms_spelled f (dict_some hd).1

/-- Every instruction is a member of the form that its opcode looks up. -/
theorem dict_covers (i : Instr) : ∃ f, dict i.entry.opcode = some f ∧ f.Covers i := by
  cases i <;> refine ⟨_, rfl, ?_⟩ <;> first | exact ⟨_, rfl⟩ | rfl

/-! ### Both directions -/

theorem decode_encode (i : Instr) (rest : List Byte) : decode (encode i ++ rest) = .ok (i, rest) := by
  obtain ⟨f, hd, hf⟩ := dict_covers i
  have hspelled := dict_spelled hd
  rw [encode, List.cons_append]
  cases f with
  | bare j =>
    cases hf
    rw [hspelled]
    exact decode_bare hd rest
  | byte g =>
    obtain ⟨b, rfl⟩ := hf
    rw [hspelled b]
    exact decode_byte hd b rest
  | word g =>
    obtain ⟨a, rfl⟩ := hf
    rw [hspelled a]
    exact decode_word hd a rest

/-- The one inversion of the decoder on bytes that begin with an opcode. -/
theorem decode_cons_ok {op : Byte} {bs rest : List Byte} {i : Instr} (h : decode (op :: bs) = .ok (i, rest)) :
    (∃ f, dict op = some f) ∧ bs = i.operand.bytes ++ rest := by
  cases hd : dict op with
  | none => simp only [decode, hd, reduceCtorEq] at h
  | some f =>
    have hspelled := dict_spelled hd
    refine ⟨⟨f, rfl⟩, ?_⟩
    simp only [decode, hd] at h
    split at h
    next => contradiction
    next j _ hj => cases hj; cases h; rw [hspelled]; rfl
    next g b _ hg => cases hg; cases h; rw [hspelled b]; rfl
    next g b1 b2 _ hg => cases hg; cases h; rw [hspelled, lowByte_join, highByte_join]; rfl
    next => cases h

theorem eq_encode_of_decode {bs rest : List Byte} {i : Instr} (h : decode bs = .ok (i, rest)) : bs = encode i ++ rest := by
  cases bs with
  | nil => cases h
  | cons op bs =>
    obtain ⟨⟨f, hd⟩, hbs⟩ := decode_cons_ok h
    have hop : i.entry.opcode = op := by rw [decode_entry hd h]; exact (dict_some hd).2
    rw [encode, hop, hbs, List.cons_append]

/-- Settles O1: the opcode looks up the form of the instruction, and the operand bytes fill it. -/
theorem decodeOfEncodeIsTheInstruction : Obligations.DecodeOfEncodeIsTheInstruction := decode_encode

/-- Settles O2: the one inversion of the decoder, whose form has the opcode in its row. -/
theorem decodedBytesAreTheEncoding : Obligations.DecodedBytesAreTheEncoding := fun _ _ _ => eq_encode_of_decode

/-- Settles O4: the decoder evaluated on each of the written words. -/
theorem specWordsDecodeToTheirInstructions : Obligations.SpecWordsDecodeToTheirInstructions :=
  ⟨rfl, rfl, rfl, rfl, rfl, rfl, rfl, rfl, rfl, rfl, rfl⟩

end Sys2Proof

namespace Sys2Proof.Machine

/-! ### Running what was fetched -/

/-- Where the bytes at PC are the words of `i`, the fetch reads exactly those and answers `i`. -/
theorem fetch_of_readBytes {s s1 : State} {i : Instr} (h : readBytes (encode i).length s.pc s = .ok (encode i) s1) :
    fetch s = .ok i s1 := by
  obtain ⟨f, hd, hf, hmode⟩ := dictRow i
  have hlength : f.entry.mode.length - 1 = i.operand.bytes.length := by
    rw [hf, ← length_encode]
    rfl
  obtain ⟨op, u, hop, h⟩ := bind_eq_ok h
  obtain ⟨bs, u', hbs, h⟩ := bind_eq_ok h
  cases h
  have hdecode : decode (encode i) = .ok (i, []) := by simpa using decode_encode i []
  rw [fetch, hop, bind_ok, hd]
  dsimp only
  rw [hlength, hbs, bind_ok]
  unfold encode at hdecode
  rw [hdecode]

theorem step_of_next {s s1 t : State} {i : Instr} (hf : s.fault = none) (h : fetch s = .ok i s1) (he : exec i s1 = .next t) :
    step s = (afterTick s1 t).outcome := by
  simp only [step, hf, h, he]

theorem step_of_fault {s s1 : State} {i : Instr} {f : Fault} (hf : s.fault = none) (h : fetch s = .ok i s1)
    (he : exec i s1 = .fault f) : step s = .fault f := by
  simp only [step, hf, h, he]

theorem exec_ne_refused (i : Instr) (s : State) (r : Refusal) : exec i s ≠ .refused r := by
  rw [exec_eq]
  exact outcome_ne_refused _ r

theorem step_ne_refused (s : State) (r : Refusal) : step s ≠ .refused r := by
  intro h
  unfold step at h
  split at h
  next => cases h
  next =>
    split at h
    next => cases h
    next i s1 _ =>
      split at h
      next => exact outcome_ne_refused _ r h
      next => cases h
      next r' hexec => exact exec_ne_refused i s1 r' hexec

/-- Settles O5: the reads of the fetch move no cycle, so the driver step gets what the instruction added. -/
theorem stepRunsDecodedInstruction : Obligations.StepRunsDecodedInstruction := by
  unfold Obligations.StepRunsDecodedInstruction
  intro s s1 i hf hread
  have hcyc : s1.cyc = s.cyc := (readBytes_ok hread).1.cyc
  have hfetch := fetch_of_readBytes hread
  cases he : exec i s1 with
  | next t =>
    rw [step_of_next hf hfetch he, afterTick, hcyc]
    dsimp only
    cases t.vblankCycles <;> rfl
  | fault f => exact step_of_fault hf hfetch he
  | refused r => exact absurd he (exec_ne_refused i s1 r)

/-- Settles O12: an instruction and the driver step each answer a state or a fault. -/
theorem nothingIsRefused : Obligations.NothingIsRefused := ⟨exec_ne_refused, step_ne_refused⟩

end Sys2Proof.Machine

/-! SUPPORT. The machine invariant (20_memory.md R61, 10_state.md R45, R46) along a step: what keeps the fields that `State.Inv`
reads, the pushes, and the driver step. -/

namespace Sys2Proof.Machine

section
variable {s t : State}

/-! ### Operations that keep memory -/

theorem inv_of_memoryKept (h : s.Inv) (hm : MemoryKept s t) (hk : Kept s t) : t.Inv :=
  inv_of_eq h hm.cpu hm.video hm.sprite hk.trace hm.latch hm.toggle hk.prg hk.chr

theorem inv_resolve {o : Operand} {access : Access} {res : Addressing} (h : s.Inv) (hr : resolve o access s = .ok res t) :
    t.Inv :=
  inv_of_memoryKept h (regs_resolve hr).memoryKept (kept_resolve hr)

theorem inv_memRead16 {a : Int} {n : Nat} (h : s.Inv) (hr : memRead16 a s = .ok n t) : t.Inv := by
  obtain ⟨_, u, h1, hr⟩ := bind_eq_ok hr
  obtain ⟨_, u', h2, hr⟩ := bind_eq_ok hr
  cases hr
  exact inv_memRead (inv_memRead h h1) h2

theorem inv_readBytes : ∀ {n : Nat} {a : Int} {s t : State} {bs : List Byte}, s.Inv → readBytes n a s = .ok bs t → t.Inv
  | 0, _, _, _, _, h, hr => by cases hr; exact h
  | _ + 1, _, _, _, _, h, hr => by
    obtain ⟨_, u, h1, hr⟩ := bind_eq_ok hr
    obtain ⟨_, u', h2, hr⟩ := bind_eq_ok hr
    cases hr
    exact inv_readBytes (inv_memRead h h1) h2

theorem inv_fetch {i : Instr} (h : s.Inv) (hf : fetch s = .ok i t) : t.Inv := by
  obtain ⟨_, u, h1, hf⟩ := bind_eq_ok hf
  split at hf
  next => simp at hf
  next =>
    obtain ⟨_, u', h2, hf⟩ := bind_eq_ok hf
    split at hf
    next => cases hf; exact inv_readBytes (inv_memRead h h1) h2
    next => simp at hf

/-! ### The stack and the interrupts -/

theorem inv_pushAddress {pc0 v : Int} {n : Unit} (h : s.Inv) (hp : pushAddress pc0 v s = .ok n t) : t.Inv := by
  obtain ⟨_, u, h1, hp⟩ := bind_eq_ok hp
  exact inv_push (inv_push h h1) hp

theorem inv_enter {pc0 ret vector : Int} {b : Bool} {n : Unit} (h : s.Inv)
    (he : enterInterrupt pc0 ret b vector s = .ok n t) : t.Inv := by
  obtain ⟨_, u1, h1, he⟩ := bind_eq_ok he
  obtain ⟨_, u2, h2, he⟩ := bind_eq_ok he
  obtain ⟨_, u3, h3, he⟩ := bind_eq_ok he
  cases he
  have hpushed : u2.Inv := inv_push (inv_pushAddress h h1) h2
  have hflags : ((if b then u2.setFlag .B true else u2).setFlag .I true).Inv := by cases b <;> exact hpushed
  have hread : u3.Inv := inv_memRead16 hflags h3
  exact hread

/-! ### The instruction -/

theorem EffectCase.inv {m : Mnemonic} {site : Site} {res : Addressing} {taken : Bool}
    (he : EffectCase m site res s taken t) (h : s.Inv) : t.Inv := by
  cases he with
  | registers ht => exact inv_of_memoryKept h ht.memoryKept ht.kept
  | branchTaken => exact h
  | store _ _ hu ht => exact inv_memWrite (inv_of_memoryKept h hu.memoryKept hu.kept) ht
  | push _ ht => exact inv_push h ht
  | pull _ hu ht => exact inv_of_memoryKept (inv_pull h hu) ht.memoryKept ht.kept
  | jump => exact h
  | @call _ _ u _ _ _ hu =>
    have hpushed : u.Inv := inv_pushAddress h hu
    exact hpushed
  | @ret _ u _ hu =>
    have hpulled : u.Inv := inv_of_memoryKept h (memoryKept_pullAddress hu) (kept_pullAddress hu)
    exact hpulled
  | interrupt _ ht => exact inv_enter h ht
  | returned _ ht => exact inv_of_memoryKept h (memoryKept_return ht) (kept_return ht)

/-- The trace is cut to its capacity whatever it was. -/
theorem inv_account {e : Entry} {pc0 : Int} {crossed taken : Bool} (h : s.Inv) : (account e pc0 crossed taken s).Inv := by
  obtain ⟨h1, h2, h3, h4, h5, h6, -, hrest⟩ := h
  exact ⟨h1, h2, h3, h4, h5, h6, List.length_take_le _ _, hrest⟩

theorem inv_exec {i : Instr} (h : s.Inv) (he : exec i s = .next t) : t.Inv := by
  obtain ⟨res, s1, taken, s2, hres, heff, rfl⟩ := exec_next he
  exact inv_account ((effect_cases heff).inv (inv_resolve h hres))

/-! ### The driver step -/

theorem inv_finishNmi (h : s.Inv) : (finishNmi s).Inv := by
  unfold finishNmi
  split <;> exact h

theorem inv_startNmi (h : s.Inv) : (startNmi s).Inv := h

theorem inv_flipVblank (h : s.Inv) : (flipVblank s).Inv := inv_setCell h (by decide) _

theorem inv_driverStep {threshold cycles : Nat} {n : Unit} (h : s.Inv) (hd : driverStep threshold cycles s = .ok n t) :
    t.Inv := by
  have hfinished := inv_finishNmi h
  have hflipped : (flipVblank { finishNmi s with vblankCount := 0 }).Inv := inv_flipVblank hfinished
  unfold driverStep at hd
  dsimp only at hd
  split at hd
  · split at hd
    · cases hd; exact hflipped
    · unfold nmiEntry at hd
      split at hd
      · exact inv_enter (inv_startNmi hflipped) hd
      · simp at hd
  · cases hd; exact hfinished

theorem inv_afterTick {before : State} {n : Unit} (h : s.Inv) (ha : afterTick before s = .ok n t) : t.Inv := by
  unfold afterTick at ha
  split at ha
  · exact inv_driverStep h ha
  · cases ha; exact h

end

/-- A constructed machine has its parameters' memory, an empty trace and no banks. -/
theorem inv_construct {p : Params} (h : p.wf = true) : (State.construct p).Inv := by
  simp only [Params.wf, Bool.and_eq_true] at h
  obtain ⟨⟨⟨-, hcpu, hcpu'⟩, hvideo, hvideo'⟩, hsprite, hsprite'⟩ := h
  exact ⟨hcpu, hcpu', hvideo, hvideo', hsprite, hsprite', Nat.zero_le _, ⟨Nat.zero_le _, fun _ => Nat.zero_le _⟩,
    List.forall_mem_nil _, List.forall_mem_nil _⟩

/-- Settles O8: each part of a step keeps the invariant; an effect by its cases. -/
theorem invariantKeptByStep : Obligations.InvariantKeptByStep := by
  unfold Obligations.InvariantKeptByStep
  intro s t h hstep
  obtain ⟨-, i, s1, t1, hfetch, hexec, hafter⟩ := step_next hstep
  exact inv_afterTick (inv_exec (inv_fetch h hfetch) hexec) hafter

/-- Settles O9: the construction by its fields; the default parameters evaluate to well-formed. -/
theorem invariantHoldsAtReset : Obligations.InvariantHoldsAtReset := ⟨fun _ => inv_construct, rfl, rfl⟩

end Sys2Proof.Machine

/-! SUPPORT. The stack and control transfer (48_stack_control.md): each stack operation on either side of its bound, with the stack
cells counted from STK, and what a return reads of what its call pushed. -/

namespace Sys2Proof.Machine

section
variable {pc0 v : Int} {b : Byte} {s : State}

/-! ### The stack operations on either side of their bounds (R280, R281) -/

theorem push_ok (h : s.stk ≠ 0) : push pc0 b s = .ok () { s.setCell (0x0100 + s.stk.toNat) b with stk := s.stk - 1 } := by
  rw [push_eq, if_neg h]

theorem push_full (h : s.stk = 0) : (push pc0 b s).outcome = .fault (.stackOverflow pc0) := by
  rw [push_eq, if_pos h, outcome_raiseFault]

theorem pull_ok (h : s.stk ≠ 0xFF) :
    pull pc0 s = .ok (s.cell (0x0100 + (s.stk.toNat + 1))) { s with stk := s.stk + 1 } := by
  rw [pull_eq, if_neg h, ← toNat_add_ofNat s.stk 1 (toNat_succ_le h)]
  rfl

theorem pull_empty (h : s.stk = 0xFF) : (pull pc0 s).outcome = .fault (.stackUnderflow pc0) := by
  rw [pull_eq, if_pos h, outcome_raiseFault]

theorem pushAddress_ok (h : 2 ≤ s.stk.toNat) : pushAddress pc0 v s = .ok ()
    { (s.setCell (0x0100 + s.stk.toNat) (hiByte v)).setCell (0x0100 + (s.stk.toNat - 1)) (loByte v) with
      stk := s.stk - 2 } := by
  have hlow : (s.stk - 1).toNat = s.stk.toNat - 1 := toNat_sub_ofNat s.stk 1 (by omega)
  have hstk : s.stk - 1 - 1 = s.stk - 2 := by bv_omega
  rw [pushAddress_eq, if_neg (by bv_omega), if_neg (by bv_omega), pushed2, hlow, hstk]

theorem pushAddress_full (h : s.stk.toNat < 2) : (pushAddress pc0 v s).outcome = .fault (.stackOverflow pc0) := by
  rw [pushAddress_eq]
  split
  · rfl
  · rw [if_pos (by bv_omega), outcome_raiseFault]

theorem pullAddress_ok (h : s.stk.toNat ≤ 0xFD) : pullAddress pc0 s =
    .ok (addressOf (s.cell (0x0100 + (s.stk.toNat + 1))) (s.cell (0x0100 + (s.stk.toNat + 2)))) { s with stk := s.stk + 2 } := by
  have hlow : (s.stk + 1).toNat = s.stk.toNat + 1 := toNat_add_ofNat s.stk 1 (by omega)
  have hstk : s.stk + 1 + 1 = s.stk + 2 := by bv_omega
  have hhigh : (s.stk + 2).toNat = s.stk.toNat + 2 := toNat_add_ofNat s.stk 2 (by omega)
  rw [pullAddress_eq, if_neg (by bv_omega), if_neg (by bv_omega), hstk, hlow, hhigh]

theorem pullAddress_empty (h : 0xFD < s.stk.toNat) : (pullAddress pc0 s).outcome = .fault (.stackUnderflow pc0) := by
  rw [pullAddress_eq]
  split
  · rfl
  · rw [if_pos (by bv_omega), outcome_raiseFault]

/-! ### The interrupts, cell by cell (R289, R290) -/

/-- STATUS after an interrupt entry: I set, B too where the entry sets it. -/
def interruptStatus (setsB : Bool) (status : Byte) : Byte :=
  putFlag .I true (if setsB then putFlag .B true status else status)

theorem interrupted_eq (setsB : Bool) (h : 3 ≤ s.stk.toNat) : interrupted v setsB s =
    { ((s.setCell (0x0100 + s.stk.toNat) (hiByte v)).setCell (0x0100 + (s.stk.toNat - 1)) (loByte v)).setCell
        (0x0100 + (s.stk.toNat - 2)) s.status with
      stk := s.stk - 3, status := interruptStatus setsB s.status } := by
  have hlow : (s.stk - 1).toNat = s.stk.toNat - 1 := toNat_sub_ofNat s.stk 1 (by omega)
  have hstk2 : s.stk - 1 - 1 = s.stk - 2 := by bv_omega
  have hstk3 : s.stk - 2 - 1 = s.stk - 3 := by bv_omega
  have hstatus : (s.stk - 2).toNat = s.stk.toNat - 2 := toNat_sub_ofNat s.stk 2 (by omega)
  rw [interrupted, pushed2, hstk2, hstk3, hlow, hstatus]
  cases setsB <;> rfl

theorem enterInterrupt_cells {ret : Int} {setsB : Bool} {vector : Nat} (h : 3 ≤ s.stk.toNat) (hv : 0x8000 ≤ vector)
    (hv' : vector ≤ 0xFFFE) : enterInterrupt pc0 ret setsB vector s = .ok ()
      { ((s.setCell (0x0100 + s.stk.toNat) (hiByte ret)).setCell (0x0100 + (s.stk.toNat - 1)) (loByte ret)).setCell
          (0x0100 + (s.stk.toNat - 2)) s.status with
        stk := s.stk - 3
        status := interruptStatus setsB s.status
        pc := addressOf (s.peek vector) (s.peek (vector + 1)) } := by
  rw [enterInterrupt_ok pc0 ret setsB vector s h hv hv', interrupted_eq setsB h, State.peek, State.peek,
    canon_high _ (by omega), canon_high _ (by omega)]

theorem returnFromInterrupt_cells (h : s.stk.toNat ≤ 0xFC) : returnFromInterrupt pc0 s =
    .ok () { s with
      status := s.cell (0x0100 + (s.stk.toNat + 1))
      stk := s.stk + 3
      pc := addressOf (s.cell (0x0100 + (s.stk.toNat + 2))) (s.cell (0x0100 + (s.stk.toNat + 3))) } := by
  have hstk2 : s.stk + 1 + 1 = s.stk + 2 := by bv_omega
  have hstk3 : s.stk + 2 + 1 = s.stk + 3 := by bv_omega
  have h1 : (s.stk + 1).toNat = s.stk.toNat + 1 := toNat_add_ofNat s.stk 1 (by omega)
  have h2 : (s.stk + 2).toNat = s.stk.toNat + 2 := toNat_add_ofNat s.stk 2 (by omega)
  have h3 : (s.stk + 3).toNat = s.stk.toNat + 3 := toNat_add_ofNat s.stk 3 (by omega)
  rw [returnFromInterrupt_ok pc0 s h, hstk2, hstk3, h1, h2, h3]

end

/-! ### Pulls undo pushes -/

/-- The same stack for the pulls to come: STK, and every byte above it. -/
structure SameStack (s t : State) : Prop where
  stk : t.stk = s.stk
  cell : ∀ c, 0x0100 + s.stk.toNat < c → t.cell c = s.cell c

section
variable {pc0 pc1 v : Int} {b : Byte} {s t u : State} {x : Unit}

theorem SameStack.trans (h1 : SameStack s t) (h2 : SameStack t u) : SameStack s u :=
  ⟨h2.stk.trans h1.stk, fun c hc => (h2.cell c (by rwa [h1.stk])).trans (h1.cell c hc)⟩

theorem Regs.sameStack (h : Regs s t) : SameStack s t := ⟨h.stk, fun c _ => h.memoryKept.cell c⟩

theorem push_inv (h : push pc0 b s = .ok x t) :
    s.stk ≠ 0 ∧ t = { s.setCell (0x0100 + s.stk.toNat) b with stk := s.stk - 1 } := by
  rw [push_eq] at h
  split_ifs at h with h0
  · simp at h
  · cases h; exact ⟨h0, rfl⟩

theorem push_keeps (hp : push pc0 b s = .ok x t) : t.status = s.status ∧ (s.cpu.wf = true → t.cpu.wf = true) := by
  obtain ⟨-, rfl⟩ := push_inv hp
  exact ⟨rfl, wf_write _ _ _⟩

/-- A pull from the stack that a push left gives the byte back and leaves the stack from before the push. -/
theorem pull_of_push (hwf : s.cpu.wf = true) (hp : push pc0 b s = .ok x u) (h : SameStack u t) :
    pull pc1 t = .ok b { t with stk := s.stk } ∧ SameStack s { t with stk := s.stk } := by
  obtain ⟨h0, rfl⟩ := push_inv hp
  have hstk : t.stk = s.stk - 1 := h.stk
  have hlow : (s.stk - 1).toNat = s.stk.toNat - 1 := toNat_sub_ofNat s.stk 1 (by bv_omega)
  have hback : t.stk + 1 = s.stk := by rw [hstk]; bv_omega
  have htop : t.stk.toNat + 1 = s.stk.toNat := by rw [hstk]; bv_omega
  have hcell (c : Nat) (hc : 0x0100 + s.stk.toNat ≤ c) : t.cell c = (s.setCell (0x0100 + s.stk.toNat) b).cell c :=
    h.cell c (by show 0x0100 + (s.stk - 1).toNat < c; bv_omega)
  refine ⟨?_, rfl, fun c hc => (hcell c (by omega)).trans (read_write_other _ _ _ _ (by omega))⟩
  rw [pull_ok (by bv_omega), htop, hback, hcell _ le_rfl]
  exact congrArg (Res.ok · _) (read_write_same _ _ _ hwf)

theorem pullAddress_of_pushAddress (hwf : s.cpu.wf = true) (hp : pushAddress pc0 v s = .ok x u) (h : SameStack u t) :
    pullAddress pc1 t = .ok (addressOf (loByte v) (hiByte v)) { t with stk := s.stk } := by
  obtain ⟨_, u1, hhigh, hlow⟩ := bind_eq_ok hp
  obtain ⟨hpull, hsame⟩ := pull_of_push (pc1 := pc1) ((push_keeps hhigh).2 hwf) hlow h
  obtain ⟨hpull', -⟩ := pull_of_push (pc1 := pc1) hwf hhigh hsame
  rw [pullAddress, hpull, bind_ok, hpull', bind_ok]

/-- Returning from the stack that an interrupt entry left gives STATUS, PC and STK back. -/
theorem returnFromInterrupt_of_enter {ret vector : Int} {setsB : Bool} (hwf : s.cpu.wf = true)
    (he : enterInterrupt pc0 ret setsB vector s = .ok x u) (h : SameStack u t) : returnFromInterrupt pc1 t =
      .ok () { t with status := s.status, stk := s.stk, pc := addressOf (loByte ret) (hiByte ret) } := by
  obtain ⟨_, u2, haddress, he⟩ := bind_eq_ok he
  obtain ⟨_, u3, hstatus, he⟩ := bind_eq_ok he
  obtain ⟨_, u4, hvector, he⟩ := bind_eq_ok he
  cases he
  obtain ⟨_, u1, hhigh, hlow⟩ := bind_eq_ok haddress
  have hkept : u2.status = s.status := (push_keeps hlow).1.trans (push_keeps hhigh).1
  have hflags : SameStack u3 ((if setsB then u3.setFlag .B true else u3).setFlag .I true) := by
    cases setsB <;> exact ⟨rfl, fun _ _ => rfl⟩
  have hread : SameStack _ u4 := (regs_memRead16 hvector).sameStack
  have hsame : SameStack u3 t := (hflags.trans hread).trans ⟨h.stk, h.cell⟩
  obtain ⟨hpull, hrest⟩ := pull_of_push (pc1 := pc1) ((push_keeps hlow).2 ((push_keeps hhigh).2 hwf)) hstatus hsame
  have haddress' := pullAddress_of_pushAddress (pc1 := pc1) (t := { t with stk := u2.stk, status := u2.status }) hwf haddress
    ⟨hrest.stk, hrest.cell⟩
  rw [returnFromInterrupt, hpull, bind_ok, haddress', bind_ok, hkept]

/-- The two bytes of an address on the bus make the address again (00_scope.md R13, R16). -/
theorem addressOf_loByte_hiByte (h0 : 0 ≤ v) (h1 : v ≤ 0xFFFF) : (addressOf (loByte v) (hiByte v) : Int) = v := by
  have hlo : ((loByte v).toNat : Int) = v % 256 := byteOf_toNat v
  have hhi : ((hiByte v).toNat : Int) = v / 256 % 256 := byteOf_toNat (v / 256)
  rw [addressOf]
  omega

end

/-! ### From an effect to its instruction -/

section
variable {i : Instr} {s s1 : State} {f : Fault} {res : Addressing}

theorem bind_of_ok {α β : Type} {r : Res α} {a : α} {u : State} {k : α → State → Res β} (h : r = .ok a u) :
    r.bind k = k a u := by
  rw [h, bind_ok]

theorem outcome_bind_fault {α β : Type} {r : Res α} {k : α → State → Res β} (h : r.outcome = .fault f) :
    (r.bind k).outcome = .fault f := by
  cases r with
  | ok a u => cases h
  | raise g u => exact h

theorem exec_fault_of_outcome (hres : resolve i.operand i.entry.access s = .ok res s1)
    (h : (effectOf i.entry.mnemonic { op := i.entry.opcode, pc0 := s.pc } res s1).outcome = .fault f) : exec i s = .fault f := by
  rw [exec_of_resolve hres]
  exact outcome_bind_fault h

end

/-- Settles O29: `push` on both sides of STK = 0. -/
theorem pushesStoreOneByte : Obligations.PushesStoreOneByte := by
  unfold Obligations.PushesStoreOneByte
  refine fun s => ⟨fun h => ⟨?pha, ?php⟩, fun h =>
    ⟨exec_fault_of_outcome (i := .pha) rfl ?phaFull, exec_fault_of_outcome (i := .php) rfl ?phpFull⟩⟩
  case pha | php => exact completesImplicit_of_effect rfl (fun _ _ => bind_of_ok (push_ok h)) rfl
  case phaFull | phpFull => exact outcome_bind_fault (push_full h)

/-- Settles O30: `pull` on both sides of STK = 0xFF. -/
theorem pullsLoadOneByte : Obligations.PullsLoadOneByte := by
  unfold Obligations.PullsLoadOneByte
  refine fun s => ⟨fun h => ⟨?pla, ?plp⟩, fun h =>
    ⟨exec_fault_of_outcome (i := .pla) rfl ?plaEmpty, exec_fault_of_outcome (i := .plp) rfl ?plpEmpty⟩⟩
  case pla =>
    exact completesImplicit_of_effect rfl (fun _ _ => bind_of_ok (pull_ok h)) ⟨rfl, znUpdated_statusZN _ _⟩
  case plp => exact completesImplicit_of_effect rfl (fun _ _ => bind_of_ok (pull_ok h)) rfl
  case plaEmpty | plpEmpty => exact outcome_bind_fault (pull_empty h)

/-- Settles O31: the operand is the target, or the two bytes read at the pointer and at the next address of its page are. -/
theorem jumpsLoadPc : Obligations.JumpsLoadPc := by
  unfold Obligations.JumpsLoadPc
  refine fun a s => ⟨exec_completes (i := .jmpAbs a) rfl rfl, ?_⟩
  intro lo hi
  have ha := a.isLt
  have hres : resolve (.indirect a) .addressOnly s =
      .ok { value := none, ea := some (addressOf lo.1 hi.1), acc := false, crossed := false } hi.2 := by
    rw [resolve, addressOf_low_high, memRead_nat _ _ (by omega), bind_ok, addressOf_next,
      memRead_nat _ _ (by split <;> omega), bind_ok]
    rfl
  exact exec_completes (i := .jmpInd a) hres rfl

/-- Settles O32: PC past the JSR less 1 is the address of its last byte; `pushAddress` on both sides of STK = 2. -/
theorem jsrPushesTheReturnAddress : Obligations.JsrPushesTheReturnAddress := by
  unfold Obligations.JsrPushesTheReturnAddress
  intro a s _ _
  have hlast : s.pc + 3 - 1 = s.pc + 2 := by omega
  refine ⟨fun h => exec_completes (i := .jsr a) rfl ?pushed, fun h => exec_fault_of_outcome (i := .jsr a) rfl ?full⟩
  case pushed => rw [← hlast]; exact bind_of_ok (pushAddress_ok (s := s.advance (.absolute a)) h)
  case full => exact outcome_bind_fault (pushAddress_full h)

/-- Settles O33: `pullAddress` on both sides of STK = 0xFD. -/
theorem rtsReturnsPastThePulledAddress : Obligations.RtsReturnsPastThePulledAddress := by
  unfold Obligations.RtsReturnsPastThePulledAddress
  refine fun s => ⟨fun h => exec_completes (i := .rts) rfl ?pulled, fun h => exec_fault_of_outcome (i := .rts) rfl ?empty⟩
  case pulled => exact bind_of_ok (pullAddress_ok (s := s.advance .implicit) h)
  case empty => exact outcome_bind_fault (pullAddress_empty h)

/-- Settles O34: the shared interrupt entry, with B set, through 0xFFFE. -/
theorem brkEntersTheSoftwareInterrupt : Obligations.BrkEntersTheSoftwareInterrupt := by
  unfold Obligations.BrkEntersTheSoftwareInterrupt
  refine fun s _ _ => ⟨fun h => ⟨interruptStatus true s.status, ?setsB, ?setsI, fun f hB hI => ?others,
    exec_completes (i := .brk) rfl ?entered⟩, fun h => exec_fault_of_outcome (i := .brk) rfl ?full⟩
  case setsB => rw [interruptStatus, getFlag_putFlag_other _ _ _ _ (by decide), if_pos rfl, getFlag_putFlag_same]
  case setsI => exact getFlag_putFlag_same _ _ _
  case others => rw [interruptStatus, getFlag_putFlag_other _ _ _ _ hI, if_pos rfl, getFlag_putFlag_other _ _ _ _ hB]; rfl
  case entered => exact bind_of_ok (enterInterrupt_cells (vector := 0xFFFE) h (by decide) (by decide))
  case full => exact outcome_bind_fault (enterInterrupt_full _ _ _ _ _ h)

/-- Settles O35: the shared return from an interrupt on both sides of STK = 0xFC. -/
theorem rtiRestoresStatusAndPc : Obligations.RtiRestoresStatusAndPc := by
  unfold Obligations.RtiRestoresStatusAndPc
  refine fun s => ⟨fun h => exec_completes (i := .rti) rfl ?returned, fun h => exec_fault_of_outcome (i := .rti) rfl ?empty⟩
  case returned => exact bind_of_ok (returnFromInterrupt_cells h)
  case empty => exact outcome_bind_fault (returnFromInterrupt_empty _ _ h)

/-- Settles O44: the pull of one byte, from the very state the push left. -/
theorem pullUndoesPush : Obligations.PullUndoesPush := by
  unfold Obligations.PullUndoesPush
  intro pc0 v s hwf h
  obtain ⟨hpull, -⟩ := pull_of_push (pc1 := pc0) hwf (push_ok (pc0 := pc0) (b := v) h) ⟨rfl, fun _ _ => rfl⟩
  exact ⟨_, _, push_ok h, hpull, rfl⟩

/-- Settles O45: between the call and the return the stack is the same, whatever PC is. -/
theorem returnsUndoTheirCalls : Obligations.ReturnsUndoTheirCalls := by
  unfold Obligations.ReturnsUndoTheirCalls
  refine fun a s t hwf h0 => ⟨fun h1 hcall => ?jsr, fun h1 hcall => ?brk⟩
  case jsr =>
    obtain ⟨_, _, _, _, hres, heff, rfl⟩ := exec_next hcall
    cases hres
    obtain ⟨_, u, hpush, heff⟩ := bind_eq_ok (r := pushAddress s.pc (s.pc + 3 - 1) (s.advance (.absolute a))) heff
    cases heff
    refine ⟨_, exec_completes (i := .rts) rfl (bind_of_ok
      (pullAddress_of_pushAddress (by exact hwf) hpush ⟨rfl, fun _ _ => rfl⟩)), ?_, rfl⟩
    show (addressOf _ _ : Int) + 1 = _
    rw [addressOf_loByte_hiByte] <;> omega
  case brk =>
    obtain ⟨_, _, _, _, hres, heff, rfl⟩ := exec_next hcall
    cases hres
    obtain ⟨_, u, henter, heff⟩ := bind_eq_ok
      (r := enterInterrupt s.pc ((s.pc + 2) % 0x10000) true 0xFFFE (s.advance .implicit)) heff
    cases heff
    refine ⟨_, exec_completes (i := .rti) rfl (bind_of_ok
      (returnFromInterrupt_of_enter (by exact hwf) henter ⟨rfl, fun _ _ => rfl⟩)), ?_, rfl, rfl⟩
    exact addressOf_loByte_hiByte (by omega) (by omega)

end Sys2Proof.Machine

/-! SUPPORT. Flag instructions and transfers (49_flags_transfer_nop.md): one completion rule each. -/

namespace Sys2Proof.Machine

theorem flagUpdated_putFlag (f : Flag) (b : Bool) (st : Byte) : FlagUpdated f b st (putFlag f b st) :=
  ⟨getFlag_putFlag_same f b st, fun g hg => getFlag_putFlag_other f g b st hg⟩

section
variable {i : Instr} {s : State} {f : Flag} {b : Bool}

theorem completesImplicit_of_setFlag (ho : i.operand = .implicit)
    (heff : ∀ site res u, effectOf i.entry.mnemonic site res u = .ok false (u.setFlag f b)) :
    CompletesImplicit i s fun s1 t => t = { s1 with status := t.status } ∧ FlagUpdated f b s.status t.status :=
  completesImplicit_of_effect ho (fun site res => heff site res _) ⟨rfl, flagUpdated_putFlag f b s.status⟩

/-- `put` puts a byte in the destination, `v` is the source. -/
theorem completesImplicit_of_setZN {v : Byte} (put : Byte → State → State) (ho : i.operand = .implicit)
    (heff : ∀ site res, effectOf i.entry.mnemonic site res { s with pc := s.pc + 1 } =
      .ok false ((put v { s with pc := s.pc + 1 }).setZN v))
    (hput : ∀ u, (put v u).status = u.status) :
    CompletesImplicit i s fun s1 t => t = { put v s1 with status := t.status } ∧ ZNUpdated v s.status t.status := by
  refine completesImplicit_of_effect ho heff ⟨rfl, ?_⟩
  rw [setZN_status, hput]
  exact znUpdated_statusZN v s.status

end

/-- Settles O36: each effect is `setFlag` of one flag (R300 to R306). -/
theorem flagInstructionsWriteOneFlag : Obligations.FlagInstructionsWriteOneFlag := by
  unfold Obligations.FlagInstructionsWriteOneFlag
  refine fun s => ⟨?clc, ?sec, ?cli, ?sei, ?cld, ?sed, ?clv⟩
  case clc | sec | cli | sei | cld | sed | clv => exact completesImplicit_of_setFlag rfl fun _ _ _ => rfl

/-- Settles O37: a transfer is `setZN` of what it puts in its destination; TXS and NOP leave the flags (R307 to R313). -/
theorem transfersCopyTheRegister : Obligations.TransfersCopyTheRegister := by
  unfold Obligations.TransfersCopyTheRegister
  refine fun s => ⟨?tax, ?tay, ?txa, ?tya, ?tsx, ?txs, ?nop⟩
  case tax | tsx => exact completesImplicit_of_setZN (fun v u => { u with x := v }) rfl (fun _ _ => rfl) fun _ => rfl
  case tay => exact completesImplicit_of_setZN (fun v u => { u with y := v }) rfl (fun _ _ => rfl) fun _ => rfl
  case txa | tya => exact completesImplicit_of_setZN (fun v u => { u with acc := v }) rfl (fun _ _ => rfl) fun _ => rfl
  case txs | nop => exact completesImplicit_of_effect rfl (fun _ _ => rfl) rfl

end Sys2Proof.Machine

/-! SUPPORT. The controller strobe, the driver step and the NMI (60_exceptions.md sections 3 and 5): the driver step by its three
outcomes, and the NMI entry as the shared interrupt entry. -/

namespace Sys2Proof.Machine

/-! ### The controller ports (60_exceptions.md R341) -/

theorem portEffect_port {c : Nat} {p : Port} (v : Byte) (s : State) (h : portAt c = some p) :
    portEffect c v s = padWrite p v s := by
  have hc := portAt_eq_some c p h
  rw [portEffect, if_neg (by omega), if_neg (by omega), if_neg (by omega), h]

theorem pad_padWrite_same (p : Port) (v : Byte) (s : State) : (padWrite p v s).pad p =
    { index := if (s.pad p).lastWrite = some true ∧ v.getLsbD 0 = false then 0 else (s.pad p).index
      lastWrite := some (v.getLsbD 0) } := pad_setPad_same s p _

theorem pad_setCell (c : Nat) (v : Byte) (s : State) (p : Port) : (s.setCell c v).pad p = s.pad p := by
  cases p <;> rfl

/-! ### FinishNMI and the three outcomes of the driver step (R330, R332) -/

/-- An NMI is still in flight after FinishNMI. -/
def stillInFlight (s : State) : Bool := s.nmiInFlight && decide (s.stk ≠ s.nmiCapturedSP)

section
variable {threshold cycles : Nat} {s t : State}

theorem finishNmi_clears (h : s.nmiInFlight = true) (h' : s.stk = s.nmiCapturedSP) :
    finishNmi s = { s with nmiInFlight := false } := by rw [finishNmi, if_pos ⟨h, h'⟩]

theorem finishNmi_keeps_all (h : s.nmiInFlight = false ∨ s.stk ≠ s.nmiCapturedSP) : finishNmi s = s := by
  rw [finishNmi, if_neg]
  rintro ⟨h1, h2⟩
  exact h.elim (by simp [h1]) (absurd h2)

theorem finishNmi_eq (s : State) : finishNmi s = { s with nmiInFlight := stillInFlight s } := by
  unfold finishNmi
  split
  next h => rw [stillInFlight, decide_eq_false (not_not_intro h.2), Bool.and_false]
  next h =>
    have hkept : stillInFlight s = s.nmiInFlight := by
      cases hn : s.nmiInFlight
      · rw [stillInFlight, hn, Bool.false_and]
      · rw [stillInFlight, hn, Bool.true_and, decide_eq_true_eq]; exact fun hs => h ⟨hn, hs⟩
    rw [hkept]

theorem driverStep_below (h : s.vblankCount + cycles ≤ threshold) : driverStep threshold cycles s =
    .ok () { s with nmiInFlight := stillInFlight s, vblankCount := s.vblankCount + cycles } := by
  simp only [driverStep, finishNmi_eq, if_neg (Nat.not_lt.2 h), gt_iff_lt]

/-- The state in which a driver step past the threshold looks for an NMI in flight: count reset, vblank bit flipped. -/
def vblankReached (s : State) : State := flipVblank { s with nmiInFlight := stillInFlight s, vblankCount := 0 }

theorem driverStep_past (h : threshold < s.vblankCount + cycles) : driverStep threshold cycles s =
    if stillInFlight s then .ok () (vblankReached s) else nmiEntry (startNmi (vblankReached s)) := by
  simp only [driverStep, finishNmi_eq, if_pos h, gt_iff_lt]
  rfl

theorem driverStep_lost (h : threshold < s.vblankCount + cycles) (hn : stillInFlight s = true) :
    driverStep threshold cycles s = .ok () (vblankReached s) := by rw [driverStep_past h, if_pos hn]

/-! ### The NMI entry (R331, R333) -/

/-- The state from which the NMI is entered: STK captured, PC and STATUS as they stand. -/
def nmiStarted (s : State) : State := startNmi (vblankReached s)

theorem driverStep_nmi (h : threshold < s.vblankCount + cycles) (hn : stillInFlight s = false) :
    driverStep threshold cycles s =
      if 0 ≤ s.pc ∧ s.pc ≤ 0xFFFF then enterInterrupt s.pc s.pc false (0xFFFA : Nat) (nmiStarted s)
      else raiseFault (.addressOutOfRange s.pc) (nmiStarted s) := by
  rw [driverStep_past h, hn, if_neg Bool.false_ne_true]
  rfl

theorem nmiStarted_eq (s : State) : nmiStarted s = { s with
    vblankCount := 0
    nmiInFlight := true
    nmiCapturedSP := s.stk
    cpu := Memory.write s.cpu 0x2002 (s.cell 0x2002 ^^^ 0x80) } := rfl

/-- The vblank cell is no vector. -/
theorem peek_nmiStarted {a : Nat} (h : 0x8000 ≤ a) : (nmiStarted s).peek a = s.peek a := by
  rw [State.peek, State.peek, canon_high a (by omega)]
  exact read_write_other s.cpu 0x2002 a _ (by omega)

end

/-- Settles O51: at a controller port the write runs `padWrite` and stores the byte. -/
theorem strobeResetsTheControllerIndex : Obligations.StrobeResetsTheControllerIndex := by
  unfold Obligations.StrobeResetsTheControllerIndex
  intro a v s p ha hp
  have hc := portAt_eq_some _ p hp
  have hwrite := memWrite_nat a v s ha (by omega)
  rw [portEffect_port v s hp] at hwrite
  refine ⟨_, hwrite, ?lastWrite, ?index, fun q hq => ?other, ?frame⟩
  case lastWrite => rw [pad_setCell, pad_padWrite_same]
  case index => rw [pad_setCell, pad_padWrite_same]
  case other => rw [pad_setCell]; exact pad_setPad_other s p q _ hq
  case frame => cases p <;> rfl

/-- Settles O53: the first two outcomes of the driver step. -/
theorem driverStepCountsAndFlips : Obligations.DriverStepCountsAndFlips := by
  unfold Obligations.DriverStepCountsAndFlips
  refine fun threshold cycles s => ⟨driverStep_below, fun h hn => (driverStep_lost h hn).trans ?_⟩
  obtain ⟨hflight, -⟩ := (Bool.and_eq_true _ _).mp hn
  have hn : stillInFlight s = s.nmiInFlight := hn.trans hflight.symm
  rw [vblankReached, hn]
  rfl

/-- Settles O54: the shared interrupt entry at PC, from the state with the vblank bit flipped and STK captured. -/
theorem driverStepEntersTheNmi : Obligations.DriverStepEntersTheNmi := by
  unfold Obligations.DriverStepEntersTheNmi
  refine fun threshold cycles s h hn => ⟨fun h0 h1 hs => ?entered, fun hpc => ?offBus, fun h0 h1 hs => ?full⟩
  case entered =>
    refine ⟨interruptStatus false s.status, flagUpdated_putFlag .I true s.status, ?_⟩
    rw [driverStep_nmi h hn, if_pos ⟨h0, h1⟩, enterInterrupt_cells (s := nmiStarted s) hs (by decide) (by decide),
      peek_nmiStarted (by decide), peek_nmiStarted (by decide), nmiStarted_eq]
    rfl
  case offBus => rw [driverStep_nmi h hn, if_neg (by omega), outcome_raiseFault]
  case full => rw [driverStep_nmi h hn, if_pos ⟨h0, h1⟩, enterInterrupt_full _ _ _ _ (nmiStarted s) hs]

/-- Settles O55: RTI finds the stack the NMI entry left, and STK is then the captured value. -/
theorem rtiEndsTheNmi : Obligations.RtiEndsTheNmi := by
  unfold Obligations.RtiEndsTheNmi
  intro threshold cycles cycles2 s t hwf h hn h2 hd
  rw [driverStep_nmi h hn] at hd
  split_ifs at hd with hpc
  · have hk : Kept (nmiStarted s) t := kept_enter hd
    have hreturn := returnFromInterrupt_of_enter (pc1 := t.pc) (t := t.advance .implicit) (wf_write _ _ _ hwf) hd
      ⟨rfl, fun _ _ => rfl⟩
    refine ⟨_, _, exec_completes (i := .rti) rfl (bind_of_ok hreturn), addressOf_loByte_hiByte hpc.1 hpc.2, rfl, rfl, hk.nmi,
      driverStep_below ?below, ?cleared⟩
    case below => show t.vblankCount + cycles2 ≤ threshold; rw [hk.vb]; exact (Nat.zero_add _).trans_le h2
    case cleared =>
      have hcaptured : s.stk = t.nmiCapturedSP := hk.cap.symm
      show (t.nmiInFlight && decide (s.stk ≠ t.nmiCapturedSP)) = false
      rw [decide_eq_false (not_not_intro hcaptured), Bool.and_false]
  · simp at hd

/-- Settles O56: the two branches of FinishNMI; StartNMI by definition. -/
theorem finishAndStartNmi : Obligations.FinishAndStartNmi := by
  unfold Obligations.FinishAndStartNmi
  exact fun s => ⟨finishNmi_clears, finishNmi_keeps_all, rfl⟩

end Sys2Proof.Machine

/-! SUPPORT. The load (70_reset_and_hazards.md section 2): its checks in order, the banks it cuts out, and the cells it maps them
to; and the run end (section 6). -/

namespace Sys2Proof.Machine

section
variable {p : Params} {r : List Byte} {s : State}

/-! ### The checks of a load (R366) -/

theorem load_badMagic (h : r.length < 16 ∨ r.take 4 ≠ romMagic) : load p r = .error .invalidRomFormat := by
  rw [load, if_pos h]

/-- The machine of a load before its banks are mapped. -/
def cartridge (p : Params) (r : List Byte) : State :=
  { State.construct p with
    prgBanks := imageBanks r (bankOffset (romHeader r)) 16384 (romHeader r).prgCount
    chrBanks := imageBanks r (bankOffset (romHeader r) + 16384 * (romHeader r).prgCount) 8192 (romHeader r).chrCount }

/-- The length of the image that its header calls for. -/
def imageLength (r : List Byte) : Nat :=
  bankOffset (romHeader r) + 16384 * (romHeader r).prgCount + 8192 * (romHeader r).chrCount

section
variable (h16 : 16 ≤ r.length) (hmagic : r.take 4 = romMagic)
include h16 hmagic

theorem load_goodMagic : load p r =
    if (romHeader r).mapper ≠ 0 then .error .unsupportedMapper
    else if (romHeader r).prgCount = 0 then .error .invalidRomFormat
    else if r.length < imageLength r then .error .invalidRomFormat
    else .ok (mapBanks (cartridge p r)) := by
  rw [load, if_neg (by simp [h16, hmagic])]
  rfl

theorem load_unsupported (hmapper : (romHeader r).mapper ≠ 0) : load p r = .error .unsupportedMapper := by
  rw [load_goodMagic h16 hmagic, if_pos hmapper]

theorem load_truncated (hmapper : (romHeader r).mapper = 0) (h : (romHeader r).prgCount = 0 ∨ r.length < imageLength r) :
    load p r = .error .invalidRomFormat := by
  rw [load_goodMagic h16 hmagic, if_neg (not_not.2 hmapper)]
  rcases h with hprg | hlength
  · rw [if_pos hprg]
  · rw [if_pos hlength, ite_self]

theorem load_complete (hmapper : (romHeader r).mapper = 0) (hprg : (romHeader r).prgCount ≠ 0)
    (hlength : imageLength r ≤ r.length) : load p r = .ok (mapBanks (cartridge p r)) := by
  rw [load_goodMagic h16 hmagic, if_neg (not_not.2 hmapper), if_neg hprg, if_neg (Nat.not_lt.2 hlength)]

end

/-- The one inversion of a load that succeeds. -/
theorem load_ok (h : load p r = .ok s) :
    (romHeader r).prgCount ≠ 0 ∧ imageLength r ≤ r.length ∧ s = mapBanks (cartridge p r) := by
  by_cases hmagic : r.length < 16 ∨ r.take 4 ≠ romMagic
  · rw [load_badMagic hmagic] at h; cases h
  · obtain ⟨h16, hmagic⟩ := not_or.1 hmagic
    rw [load_goodMagic (Nat.not_lt.1 h16) (not_not.1 hmagic)] at h
    split_ifs at h with hmapper hprg hlength
    cases h
    exact ⟨hprg, Nat.not_lt.1 hlength, rfl⟩

/-! ### The banks of an image -/

theorem getD_slice {off size k : Nat} (hk : k < size) : ((r.drop off).take size).getD k 0 = imageByte r (off + k) := by
  rw [imageByte, List.getD_eq_getElem?_getD, List.getD_eq_getElem?_getD, List.getElem?_take_of_lt hk, List.getElem?_drop]

theorem getD_imageBanks {off size n j : Nat} (hj : j < n) :
    (imageBanks r off size n).getD j [] = (r.drop (off + size * j)).take size := by
  simp [imageBanks_eq, hj]

theorem length_slice {off size : Nat} (h : off + size ≤ r.length) : ((r.drop off).take size).length = size := by
  simp; omega

/-! ### Where the banks are mapped (R368, R369) -/

/-- The program bank at 0x8000. -/
def lowerBank (s : State) : List Byte := s.prgBanks.getD 0 []

/-- The program bank at 0xC000. -/
def upperBank (s : State) : List Byte := if s.prgBanks.length = 1 then lowerBank s else s.prgBanks.getD 1 []

/-- The CPU-bus cells with the program banks in place. -/
def programCells (s : State) : Memory :=
  Memory.writeBlock (Memory.writeBlock s.cpu 0x8000 (lowerBank s)) 0xC000 (upperBank s)

theorem mapBanks_cpu (s : State) : (mapBanks s).cpu =
    Memory.write (programCells s) 0x2002 (Memory.read (programCells s) 0x2002 ||| 0x80) := rfl

theorem mapBanks_video (s : State) : (mapBanks s).video =
    if s.chrBanks.length ≥ 1 then Memory.writeBlock s.video 0 (s.chrBanks.getD 0 []) else s.video := rfl

theorem programCells_wf (hwf : s.cpu.wf = true) : (programCells s).wf = true :=
  wf_writeBlock _ _ _ (wf_writeBlock _ _ _ hwf)

section
variable (hlower : (lowerBank s).length = 16384) (hupper : (upperBank s).length = 16384)
include hlower hupper

theorem read_programCells (c : Nat) : Memory.read (programCells s) c =
    if 0xC000 ≤ c ∧ c < 0x10000 then (upperBank s).getD (c - 0xC000) 0
    else if 0x8000 ≤ c ∧ c < 0xC000 then (lowerBank s).getD (c - 0x8000) 0
    else s.cell c := by
  rw [programCells, read_writeBlock, read_writeBlock, hlower, hupper]
  rfl

theorem mapBanks_lower {k : Nat} (hk : k < 16384) : (mapBanks s).peek (0x8000 + k) = (lowerBank s).getD k 0 := by
  rw [State.peek, canon_high _ (by omega), State.cell, mapBanks_cpu, read_write_other _ _ _ _ (by omega),
    read_programCells hlower hupper, if_neg (by omega), if_pos (by omega), Nat.add_sub_cancel_left]

theorem mapBanks_upper {k : Nat} (hk : k < 16384) : (mapBanks s).peek (0xC000 + k) = (upperBank s).getD k 0 := by
  rw [State.peek, canon_high _ (by omega), State.cell, mapBanks_cpu, read_write_other _ _ _ _ (by omega),
    read_programCells hlower hupper, if_pos (by omega), Nat.add_sub_cancel_left]

theorem mapBanks_below {c : Nat} (hc : c < 0x8000) (hne : c ≠ 0x2002) : (mapBanks s).cell c = s.cell c := by
  rw [State.cell, mapBanks_cpu, read_write_other _ _ _ _ hne, read_programCells hlower hupper, if_neg (by omega),
    if_neg (by omega)]

theorem mapBanks_vblank (hwf : s.cpu.wf = true) : (mapBanks s).cell 0x2002 = s.cell 0x2002 ||| 0x80 := by
  rw [State.cell, mapBanks_cpu, read_write_same _ _ _ (programCells_wf hwf),
    read_programCells hlower hupper, if_neg (by decide), if_neg (by decide)]

/-- Mapping full banks keeps the invariant: each block lies on its own cells. -/
theorem inv_mapBanks (h : s.Inv) : (mapBanks s).Inv := by
  obtain ⟨hcpu, hcpu', hvideo, hvideo', hsprite, hsprite', htrace, hlatch, hprg, hchr⟩ := h
  have hhigh : ∀ b, 0x8000 ≤ b → b < 0x10000 → cpuCell b = true := fun b h1 h2 => by
    rw [← canon_high b (by omega)]
    exact cpuCell_canon b (by omega)
  have hprogram : (programCells s).within cpuCell = true := by
    rw [programCells]
    exact within_writeBlock _ _ _ _ (fun b h1 h2 => hhigh b (by omega) (by omega))
      (within_writeBlock _ _ _ _ (fun b h1 h2 => hhigh b h1 (by omega)) hcpu')
  have hpattern : (mapBanks s).video.wf = true ∧ (mapBanks s).video.within videoCell = true := by
    rw [mapBanks_video]
    split
    next hcount =>
      have hbank : (s.chrBanks.getD 0 []).length = 8192 := hchr _ (by
        rw [List.getD_eq_getElem _ _ hcount]
        exact List.getElem_mem hcount)
      refine ⟨wf_writeBlock _ _ _ hvideo, within_writeBlock _ _ _ _ (fun b _ h2 => ?_) hvideo'⟩
      rw [← vcanon_plain (a := b) (by omega)]
      exact videoCell_vcanon b (by omega)
    next => exact ⟨hvideo, hvideo'⟩
  exact ⟨wf_write _ _ _ (programCells_wf hcpu), within_write _ _ _ _ (by decide) hprogram, hpattern.1, hpattern.2, hsprite,
    hsprite', htrace, hlatch, hprg, hchr⟩

end
end

/-! ### The machine a load leaves -/

section
variable {p : Params} {r : List Byte} (hprg : (romHeader r).prgCount ≠ 0)
include hprg

theorem lowerBank_cartridge : lowerBank (cartridge p r) = (r.drop (bankOffset (romHeader r))).take 16384 :=
  getD_imageBanks (j := 0) (Nat.pos_of_ne_zero hprg)

theorem upperBank_cartridge : upperBank (cartridge p r) =
    (r.drop (bankOffset (romHeader r) + if (romHeader r).prgCount = 1 then 0 else 16384)).take 16384 := by
  have hcount : (cartridge p r).prgBanks.length = (romHeader r).prgCount := length_imageBanks _ _ _ _
  rw [upperBank, hcount]
  split
  next => exact lowerBank_cartridge hprg
  next hmany => exact getD_imageBanks (j := 1) (by omega)

variable (hlength : imageLength r ≤ r.length)
include hlength

theorem length_lowerBank_cartridge : (lowerBank (cartridge p r)).length = 16384 := by
  rw [imageLength] at hlength
  rw [lowerBank_cartridge hprg, length_slice (by omega)]

theorem length_upperBank_cartridge : (upperBank (cartridge p r)).length = 16384 := by
  rw [imageLength] at hlength
  rw [upperBank_cartridge hprg, length_slice (by split <;> omega)]

end

section
variable {p : Params} {r : List Byte} (hlength : imageLength r ≤ r.length)
include hlength

theorem inv_cartridge (hwf : p.wf = true) : (cartridge p r).Inv := by
  obtain ⟨h1, h2, h3, h4, h5, h6, h7, h8, -, -⟩ := inv_construct hwf
  rw [imageLength] at hlength
  exact ⟨h1, h2, h3, h4, h5, h6, h7, h8, length_of_mem_imageBanks _ _ _ _ (by omega),
    length_of_mem_imageBanks _ _ _ _ (by omega)⟩

/-- The pattern table is character bank 0 where there is one; the other video cells are as constructed. -/
theorem read_video_cartridge (c : Nat) : Memory.read (mapBanks (cartridge p r)).video c =
    if (romHeader r).chrCount = 0 ∨ 8192 ≤ c then Memory.read p.videoInit c
    else imageByte r (bankOffset (romHeader r) + 16384 * (romHeader r).prgCount + c) := by
  have hcount : (cartridge p r).chrBanks.length = (romHeader r).chrCount := length_imageBanks _ _ _ _
  rw [imageLength] at hlength
  rw [mapBanks_video, hcount]
  by_cases hchr : (romHeader r).chrCount = 0
  · rw [if_neg (by omega), if_pos (.inl hchr)]
    rfl
  · have hbank : (cartridge p r).chrBanks.getD 0 [] =
        (r.drop (bankOffset (romHeader r) + 16384 * (romHeader r).prgCount)).take 8192 :=
      getD_imageBanks (j := 0) (Nat.pos_of_ne_zero hchr)
    rw [if_pos (by omega), hbank, read_writeBlock, length_slice (by omega)]
    by_cases hc : c < 8192
    · rw [if_pos (by omega), if_neg (by omega)]
      exact getD_slice hc
    · rw [if_neg (by omega), if_pos (by omega)]
      rfl

end

/-- Settles O58: the checks of the load, in their order. -/
theorem loadRejectsBadImages : Obligations.LoadRejectsBadImages := by
  unfold Obligations.LoadRejectsBadImages
  intro p r byte need
  exact ⟨load_badMagic, fun h16 hmagic => ⟨load_unsupported h16 hmagic, fun hmapper =>
    ⟨load_truncated h16 hmagic hmapper, fun hprg hlength => ⟨_, load_complete h16 hmagic hmapper hprg hlength⟩⟩⟩⟩

/-- Settles O59: each bank is the slice of the image at its place, and the mapped cells hold those slices. -/
theorem loadMapsTheCartridge : Obligations.LoadMapsTheCartridge := by
  unfold Obligations.LoadMapsTheCartridge
  intro p r s hwf hload
  obtain ⟨hprg, hlength, rfl⟩ := load_ok hload
  have hlower := length_lowerBank_cartridge (p := p) hprg hlength
  have hupper := length_upperBank_cartridge (p := p) hprg hlength
  have hinv := inv_cartridge hlength hwf
  refine ⟨fun k hk => ⟨?lower, ?upper⟩, fun k hk => ?pattern, ?vblank, fun c hc hne => ?below, fun c hc => ?video,
    length_imageBanks _ _ _ _, length_imageBanks _ _ _ _, imageBanks_eq _ _ _ _, imageBanks_eq _ _ _ _, rfl,
    inv_mapBanks hlower hupper hinv⟩
  case lower =>
    rw [mapBanks_lower hlower hupper hk, lowerBank_cartridge hprg, getD_slice hk]
    rfl
  case upper =>
    rw [mapBanks_upper hlower hupper hk, upperBank_cartridge hprg, getD_slice hk]
    rfl
  case pattern =>
    rw [State.vpeek, vcanon_plain (by omega), read_video_cartridge hlength]
    simp only [Nat.not_le.2 hk, or_false]
    rfl
  case vblank => exact mapBanks_vblank hlower hupper hinv.1
  case below => exact mapBanks_below hlower hupper hc hne
  case video => rw [read_video_cartridge hlength, if_pos (.inr hc)]

/-! ### The run end (R375, R376) -/

/-- The bytes stored at PC, none of them at a controller port, are JMP Absolute to PC. -/
structure SelfJump (a : Addr) (s : State) : Prop where
  fault : s.fault = none
  pc : s.pc = a.toNat
  onBus : a.toNat + 2 ≤ 0xFFFF
  noPort : ∀ k, k < 3 → portAt (canon (a.toNat + k)) = none
  opcode : s.peek a.toNat = 0x4C
  low : s.peek (a.toNat + 1) = lowByte a
  high : s.peek (a.toNat + 2) = highByte a

section
variable {a : Addr} {s : State}

theorem SelfJump.fetch (h : SelfJump a s) : fetch s = .ok (.jmpAbs a) s := by
  apply fetch_of_readBytes
  have hread := fetchReadsTheStoredBytes 3 a.toNat s (by have := h.onBus; omega) h.noPort
  rw [h.pc]
  refine hread.trans ?_
  show Res.ok [s.peek a.toNat, s.peek (a.toNat + 1), s.peek (a.toNat + 2)] s = _
  rw [h.opcode, h.low, h.high]
  rfl

theorem SelfJump.atRunEnd (h : SelfJump a s) : atRunEnd s = true := by
  rw [Machine.atRunEnd, selfJumpNext, h.fetch, h.fault]
  simp [h.pc]

theorem SelfJump.exec (h : SelfJump a s) : exec (.jmpAbs a) s = .next (account (Instr.jmpAbs a).entry s.pc false false s) := by
  have hjump := (jumpsLoadPc a s).1
  rw [← h.pc] at hjump
  exact hjump

theorem SelfJump.account {e : Entry} {pc0 : Int} {crossed taken : Bool} (h : SelfJump a s) :
    SelfJump a (account e pc0 crossed taken s) :=
  ⟨h.fault, h.pc, h.onBus, h.noPort, h.opcode, h.low, h.high⟩

end

/-- Settles O60: the fetch reads the jump, the jump moves PC to itself, and the state it leaves is again a run end. -/
theorem selfJumpKeepsThePc : Obligations.SelfJumpKeepsThePc := by
  unfold Obligations.SelfJumpKeepsThePc
  intro s a hfault hdriver hpc hbus hport hop hlow hhigh
  have h : SelfJump a s := ⟨hfault, hpc, hbus, hport, hop, hlow, hhigh⟩
  refine ⟨h.atRunEnd, account (Instr.jmpAbs a).entry s.pc false false s, ?_, rfl, h.account.atRunEnd⟩
  rw [step_of_next hfault h.fetch h.exec, afterTick, account_vblankCycles, hdriver]
  rfl

end Sys2Proof.Machine
